-- ==== Sys2Proof/Word.lean ====
section
/-! DEFINITION. The word types of the two-wire master: a byte of the wire, a 36-bit command word, a word of the status
port (spec/00_scope.md R11, spec/30_encoding.md R80), and the plainest arithmetic over them. The 12-bit code, whose width is
the constant `CODE_BITS`, stands in Config.lean. -/

namespace Sys2Proof

/-- One byte of the wire: eight data bits, bit 7 sent first (R64). -/
abbrev Byte := BitVec 8

/-- One word of the host command port, `CMD[35:0]` (R80). -/
abbrev CommandWord := BitVec 36

/-- One word of the status port, and the width of `RESULT` (R32, R35). -/
abbrev Word32 := BitVec 32

/-- `clamp(x, lo, hi)` of R11: `lo` if `x < lo`, `hi` if `x > hi`, otherwise `x`. -/
def clamp (x lo hi : Int) : Int :=
  if x < lo then lo else if hi < x then hi else x

end Sys2Proof
end

