-- ==== Sys2Proof/Config.lean ====
section
/-! DEFINITION. Constants and parameters of the master (spec/00_scope.md R8, R9). Every constant the spec prints is
a named field here with the printed value (R8, decision D29); every parameter the spec leaves OPEN is an opaque
constant with no body, so that no proof can learn a value of it (R9, decisions D1, D19, D24). -/

namespace Sys2Proof

/-- `T_BIT`, "a full bit period of 5 µs", in nanoseconds (R8). -/
def Config.tBit : Nat := 5000
/-- `T_BEFORE`, "a pre-transition hold of 2 µs", in nanoseconds (R8). -/
def Config.tBefore : Nat := 2000
/-- `T_AFTER`, "a post-transition hold of 3 µs", in nanoseconds (R8). -/
def Config.tAfter : Nat := 3000
/-- `T_STORE`, "a fixed settle delay of 10 ms" after the store sequence, in nanoseconds (R8). -/
def Config.tStore : Nat := 10000000

/-- `STORE_HEAD`, "a fixed header byte (0x02)" (R8). -/
def Config.storeHead : Byte := 0x02
/-- `STORE_ADDR`, "a fixed address byte (0x10)" (R8). -/
def Config.storeAddr : Byte := 0x10
/-- `STORE_CMD1`, "a fixed command byte (0x03)" (R8). -/
def Config.storeCmd1 : Byte := 0x03
/-- `STORE_CMD2`, "a fixed command byte (0x00)" (R8). -/
def Config.storeCmd2 : Byte := 0x00
/-- `STORE_CMD2_COUNT`, "eight times in direct succession" (R8). -/
def Config.storeCmd2Count : Nat := 8

/-- `CODE_BITS`, "12-bit resolution" (R8); the width of `Code`, and of every narrowing to a code. -/
abbrev Config.codeBits : Nat := 12
/-- A digital code: "an unsigned integer in [0, 4095] (12-bit resolution)" (the glossary of 00_scope.md), of `CODE_BITS`
bits (R8). -/
abbrev Code := BitVec Config.codeBits
/-- `CODE_MAX`, the top of the range "[0, 4095]" (R8). -/
def Config.codeMax : Nat := 4095

/-- `I_MAX` in milliamperes, "the chip's rated maximum current" (R8). -/
def Config.iMax : Nat := 25
/-- `I_LO` in milliamperes, the lower end of the calibrated band (R8). -/
def Config.iLo : Nat := 4
/-- `I_HI` in milliamperes, the upper end of the calibrated band (R8). -/
def Config.iHi : Nat := 20
/-- `I_SPAN` in milliamperes, the divisor 16 of the calibrated formula (R8). -/
def Config.iSpan : Nat := 16
/-- The scale of the current operand: `2 ^ CUR_FRAC` with `CUR_FRAC = 16` (R9, R85, decision D7). -/
def Config.curScale : Nat := 65536

/-- `CAL_LO_DEFAULT`, the default code at 4 mA (R8). -/
def Config.calLoDefault : Code := 655
/-- `CAL_HI_DEFAULT`, the default code at 20 mA (R8). -/
def Config.calHiDefault : Code := 3277

/-- `STATUS_FOUND`: "0 = device present (acknowledged)" (R8). -/
def Config.statusFound : Word32 := 0
/-- `STATUS_NOT_FOUND`: "2 = device not found (not acknowledged)" (R8). -/
def Config.statusNotFound : Word32 := 2

/-- `ACK_CHECK_ALL = false`: the optional hardening of R156 is not implemented by this hardware (R9, decision D25);
no operation of the model consults an acknowledgment except PROBE's status. -/
def Config.ackCheckAll : Bool := false

/-- `DRIVE_STYLE`: whether a 1 in output mode is driven or released (R9, R39). -/
inductive DriveStyle where
  | openDrain
  | pushPull
deriving DecidableEq, Repr, Inhabited

/-- `DEV_ADDR` as it is configured at construction: OPEN, 7 bits, no value in the spec (R9, R24, decision D19); assumption
log 4. -/
opaque Config.devAddr : BitVec 7
/-- `REG_SEL` as it is configured at construction: OPEN, 8 bits, no value in the spec (R9, R24, decision D19); assumption
log 4. -/
opaque Config.regSel : BitVec 8
/-- `DRIVE_STYLE`: OPEN, and no rule depends on it (R39, decision D24); assumption log 16. -/
opaque Config.driveStyle : DriveStyle
/-- `CLK_HZ`: OPEN (R6, R9, decision D1); assumption log 16. -/
opaque Config.clkHz : Nat
/-- `T_STEP`, the time between two consecutive events with no hold between them, a duration that is not negative,
in nanoseconds: OPEN (R9, R38, R219, decision D1). -/
opaque Config.tStep : NNRat

/-- `draw()`: the level the environment presents on `sda_i` at the n-th sample since the run began, true for 1.
A FREE VALUE: "one bit, under no law of the master" (R30, 93 U3); assumption log 3. -/
opaque Config.draw : Nat → Bool
/-- What the n-th host read of `OUT_CODE` made while `OUT_VALID = 0` returns. A FREE VALUE: "a read of it returns an
unspecified value" (R23, 93 U4); assumption log 2. -/
opaque Config.unwrittenOut : Nat → Code

end Sys2Proof
end

