-- ==== Sys2Proof/Syntax.lean ====
section
/-! DEFINITION. The one syntax of instructions: one constructor per row of spec/opcode_table.json, which lists the
eight host commands (formats of spec/30_encoding.md R82 to R86) and the six wire patterns of R91 to R94. -/

namespace Sys2Proof

/-- One row of the opcode table. The first eight are the commands of the host port (R81); the last six are the wire
patterns the master's sequencer sends as parts of commands (R91 to R94), which no command word spells (R98). -/
inductive Instr where
  /-- PROBE, opcode 0x1, format N (R81, R82, R151). -/
  | probe
  /-- SET_CAL, opcode 0x2, format K: `lo` is `arg[15:0]` and `hi` is `arg[31:16]` (R84, R174). -/
  | setCal (lo hi : BitVec 16)
  /-- WRITE_CODE, opcode 0x3, format C: `code` is `arg[15:0]` (R83, R152). -/
  | writeCode (code : BitVec 16)
  /-- WRITE_CURRENT, opcode 0x4, format I: `iIn` is `arg[31:0]`, signed with 16 fraction bits (R85, R175). -/
  | writeCurrent (iIn : BitVec 32)
  /-- STORE, opcode 0x5, format N (R82, R153). -/
  | store
  /-- START, opcode 0x6, format N (R82, R131). -/
  | start
  /-- STOP, opcode 0x7, format N (R82, R132). -/
  | stop
  /-- TXBYTE, opcode 0x8, format B: `byte` is `arg[7:0]`, `nh` is `arg[8]` ("no hold") (R86, R133). -/
  | txByte (byte : Byte) (nh : Bool)
  /-- ADDR_BYTE, the byte cell `aaaaaaa0` (R91, R150). -/
  | addrByte (a : BitVec 7)
  /-- PROBE_FRAME, `S aaaaaaa0 A P` (R92, R151). -/
  | probeFrame (a : BitVec 7)
  /-- WRITE_CODE_FRAME, `S aaaaaaa0 A rrrrrrrr A llll0000 A hhhhhhhh A P` (R93, R152). -/
  | writeCodeFrame (a : BitVec 7) (r : Byte) (l : BitVec 4) (h : Byte)
  /-- STORE_FRAME_1, `S 00000010 A P` (R94, R153). -/
  | storeFrame1
  /-- STORE_FRAME_2, `S 00010000 A 00000011 A P` (R94, R153). -/
  | storeFrame2
  /-- STORE_FRAME_3, `S aaaaaaa0 A (00000000 A) × 8 P` (R94, R153). -/
  | storeFrame3 (a : BitVec 7)
deriving DecidableEq, Repr

/-- Whether the row is a command of the host port (R81); the other rows are wire patterns (R98). -/
def Instr.isCommand : Instr → Bool
  | .probe => true
  | .setCal _ _ => true
  | .writeCode _ => true
  | .writeCurrent _ => true
  | .store => true
  | .start => true
  | .stop => true
  | .txByte _ _ => true
  | .addrByte _ => false
  | .probeFrame _ => false
  | .writeCodeFrame _ _ _ _ => false
  | .storeFrame1 => false
  | .storeFrame2 => false
  | .storeFrame3 _ => false

/-- One symbol of a wire pattern in wire order: the start condition `S`, a byte cell, the stop condition `P`
(R90, R92). Acknowledgment slots follow every byte and are not written. -/
inductive WireSym where
  | s
  | byte (b : Byte)
  | p
deriving DecidableEq, Repr

/-- What an instruction is written as: a command as a word of the host port (R80), a wire pattern as its symbols in
wire order (R92 to R94). -/
inductive Encoded where
  | command (w : CommandWord)
  | wire (f : List WireSym)
deriving DecidableEq, Repr

end Sys2Proof
end

