-- ==== Sys2Proof/Machine/State.lean ====
section
/-! DEFINITION. The machine's state as plain data (spec/10_state.md R20 to R43), the trace alphabet (R38), the micro-
operations (spec/40_line_driver.md R110), what the host can do (spec/70_reset_and_hazards.md R229), and the state right
after reset (R43, R210). -/

namespace Sys2Proof.Machine

/-- `LINK`, the link state of R27: "**Idle**, **Started**, **Stopped**". -/
inductive LinkState where
  | idle
  | started
  | stopped
deriving DecidableEq, Repr

/-- The two modes of the data line (R113). -/
inductive Dir where
  | input
  | output
deriving DecidableEq, Repr

/-- The trace alphabet of R38; a level is true for 1, a duration is in nanoseconds. -/
inductive Event where
  /-- `SCL(v)`: "clock line output set to v". -/
  | scl (v : Bool)
  /-- `SDA(v)`: "data output latch set to v". -/
  | sda (v : Bool)
  /-- `DIR(in)`, `DIR(out)`: "data line switched to input / output mode". -/
  | dir (m : Dir)
  /-- `SAMPLE(v)`: "data line read, v was the level drawn". -/
  | sample (v : Bool)
  /-- `HOLD(d)`: "lines held unchanged for exactly d". -/
  | hold (d : Nat)
deriving DecidableEq, Repr

/-- The five line-driver micro-operations (R111 to R115). -/
inductive MicroOp where
  | setScl (v : Bool)
  | setSda (v : Bool)
  | sdaMode (m : Dir)
  | readSda
  | hold (d : Nat)
deriving DecidableEq, Repr

/-- The register writes that stand between micro-operations in the operations' pseudocode. They emit nothing and take no
step of their own (assumption log 7). -/
inductive Update where
  /-- `LINK <- l` (R131, R132). -/
  | setLink (l : LinkState)
  /-- `ACK <- a`, the last line of TXBYTE (R133). -/
  | ackFromSample
  /-- `OUT_CODE <- c ; OUT_VALID <- 1` (R152). -/
  | setOut (c : Code)
  /-- `RESULT <- v` (R152, R175). -/
  | setResult (v : Word32)
  /-- `RESULT <- zext_32(a)`, TXBYTE as a host command (R133). -/
  | resultFromAck
  /-- `if a = 0: RESULT <- 0; READY <- 1 else: RESULT <- 2` (R151). -/
  | probeStatus
  /-- `CAL_LO <- lo; CAL_HI <- hi; CAL_EN <- 1` (R174). -/
  | setCal (lo hi : Code)
deriving DecidableEq, Repr

/-- One line of an operation's pseudocode: a micro-operation, or a register write between two of them. -/
inductive Act where
  | op (m : MicroOp)
  | upd (u : Update)
deriving DecidableEq, Repr

/-- The hidden sequencer state of R36, which "exists only while `BUSY = 1`": "A model may carry it as a list of
micro-operations still to do." The byte, bit, transaction and repeat counts of R36 are "fully determined by the command
and the number of micro-operations already done". -/
structure Progress where
  /-- The opcode and operand of the command in progress (R36). -/
  cmd : Instr
  /-- The number of micro-operations already done (R26, R36). -/
  done : Nat
  /-- What is still to do, in order. -/
  todo : List Act
  /-- The value `a` of TXBYTE's pseudocode, from `READ_SDA()` to `ACK <- a` (R133); none before the first sample
  (assumption log 7). -/
  sampled : Option Bool
deriving DecidableEq, Repr

/-- One thing the host does at the master's boundary (R229), between two steps of the sequencer (assumption log 9). -/
inductive HostAct where
  /-- Present a command word and do nothing more until `BUSY` has fallen, as the source's calls block (R34, R215). -/
  | call (w : CommandWord)
  /-- Present a command word and go on: what the host does next can land between its micro-operations (R35, R211). -/
  | post (w : CommandWord)
  /-- Read status word `n` (R35). -/
  | read (n : Nat)
  /-- Do nothing for one step of the sequencer. -/
  | wait
  /-- Reset, configuring `DEV_ADDR` and `REG_SEL` (R210 to R212, R229). -/
  | reset (devAddr : BitVec 7) (regSel : Byte)
  /-- THE MODEL'S OWN, no interaction of R229: have the sequencer send one wire pattern of the opcode table by itself
  (assumption log 5). -/
  | frame (f : List WireSym)
deriving DecidableEq, Repr

/-- A status word the host has read: its number and what was returned (R35). -/
structure StatusRead where
  num : Nat
  value : Word32
deriving DecidableEq, Repr

/-- Why the machine stops. -/
inductive Fault where
  /-- Raised by a host read of a status word numbered 5 or above: such words "do not exist and the spec gives such a read
  no meaning" (R229; assumption log 12). Safe: nothing is claimed of such a run. -/
  | noSuchStatusWord (n : Nat)
deriving DecidableEq, Repr

/-- Why a step has no meaning. -/
inductive Refusal where
  /-- Raised by an arm of `exec` whose instruction has no meaning yet; no arm does. Safe. -/
  | notModelled (mnemonic : String)
  /-- Raised by the model's own frame bench when its symbols are no wire pattern of the opcode table (assumption
  log 5); no command of the host and no instruction raises it. Safe. -/
  | notAWirePattern
deriving DecidableEq, Repr

/-- The state of the master (R20), its trace (R38), and what stands at its boundary: the environment's samples (R30) and
the host (R229). `BUSY` is held by `seq`, since the hidden sequencer state "exists only while `BUSY = 1`" (R36):
see `State.busy` (assumption log 10). A flag or a level is true for 1. -/
structure State where
  /-- `CAL_LO`, 12 bits (R21). -/
  calLo : Code
  /-- `CAL_HI`, 12 bits (R21). -/
  calHi : Code
  /-- `CAL_EN` (R22). -/
  calEn : Bool
  /-- `OUT_CODE`, 12 bits (R23). -/
  outCode : Code
  /-- `OUT_VALID` (R23). -/
  outValid : Bool
  /-- `READY` (R28). -/
  ready : Bool
  /-- `ACK` (R31). -/
  ack : Bool
  /-- `ERR_SEQ` (R33). -/
  errSeq : Bool
  /-- `ERR_OP` (R33). -/
  errOp : Bool
  /-- `LINK` (R27). -/
  link : LinkState
  /-- `SCL_O` (R29). -/
  sclO : Bool
  /-- `SDA_O` (R29). -/
  sdaO : Bool
  /-- `SDA_OE`, true for output mode (R29). -/
  sdaOe : Bool
  /-- `RESULT`, 32 bits (R32). -/
  result : Word32
  /-- The hidden sequencer state, present exactly while `BUSY = 1` (R34, R36). -/
  seq : Option Progress
  /-- `DEV_ADDR`, configuration, constant from reset to reset (R24). -/
  devAddr : BitVec 7
  /-- `REG_SEL`, configuration, constant from reset to reset (R24). -/
  regSel : Byte
  /-- The trace of line events, oldest first (R38). -/
  trace : List Event
  /-- The environment's: levels it has fixed for the coming samples, next first ("A test environment may fix the draws",
  R30). Where the list has run out, a sample is a free value. -/
  samples : List Bool
  /-- THE MODEL'S OWN: the number of samples drawn since the run began, the argument of the free value (logs 3
  and 13). -/
  drawn : Nat
  /-- The host's: what it is going to do, next first (R229). -/
  host : List HostAct
  /-- The host's: the status words it has got back, oldest first (R35, R229). -/
  reads : List StatusRead
  /-- THE MODEL'S OWN: the number of reads of `OUT_CODE` made while it held no value, the argument of the free value
  (logs 2 and 13). -/
  outReads : Nat
deriving DecidableEq, Repr

/-- Every piece of the master's state at its reset value (R43), configured with a device address and a register selector
(R24, R210), with nothing at the boundary. `OUT_CODE` has no reset value in the spec: 0 here (DESIGN CHOICE,
assumption log 1). -/
def State.resetWith (devAddr : BitVec 7) (regSel : Byte) : State where
  calLo := Config.calLoDefault
  calHi := Config.calHiDefault
  calEn := false
  outCode := 0
  outValid := false
  ready := false
  ack := true
  errSeq := false
  errOp := false
  link := .idle
  sclO := true
  sdaO := true
  sdaOe := true
  result := 0
  seq := none
  devAddr := devAddr
  regSel := regSel
  trace := []
  samples := []
  drawn := 0
  host := []
  reads := []
  outReads := 0

/-- The machine right after reset (R43, R210): configured with the OPEN parameters `DEV_ADDR` and `REG_SEL` (R9). -/
def State.reset : State := State.resetWith Config.devAddr Config.regSel

end Sys2Proof.Machine
end

