-- ==== Sys2Proof/Machine/Ops.lean ====
section
/-! DEFINITION. The named operations over the state: the ports (spec/10_state.md R29, R39), the line-driver micro-
operations (spec/40_line_driver.md R111 to R115), the register writes between them, the sequencer that runs a list of
both (R26, R34, R36), the two refusals (spec/60_exceptions.md R194, R195) and reset (R210, R211). The master has no
memory, no exception entry and no return from one (R60, R198, R199). -/

namespace Sys2Proof.Machine

/-! Single writes. -/

/-- Append one event to the trace: `emit(e)` (R12, R38). -/
def State.emit (s : State) (e : Event) : State := { s with trace := s.trace ++ [e] }

/-- Write `SCL_O`. -/
def State.putScl (s : State) (v : Bool) : State := { s with sclO := v }

/-- Write `SDA_O`. -/
def State.putSda (s : State) (v : Bool) : State := { s with sdaO := v }

/-- Write `SDA_OE`. -/
def State.putSdaOe (s : State) (v : Bool) : State := { s with sdaOe := v }

/-- Write `LINK`. -/
def State.putLink (s : State) (l : LinkState) : State := { s with link := l }

/-- Write `ACK`. -/
def State.putAck (s : State) (v : Bool) : State := { s with ack := v }

/-- Write `READY`. -/
def State.putReady (s : State) (v : Bool) : State := { s with ready := v }

/-- Write `RESULT`. -/
def State.putResult (s : State) (v : Word32) : State := { s with result := v }

/-- `OUT_CODE <- c ; OUT_VALID <- 1` (R23, R152). -/
def State.putOut (s : State) (c : Code) : State := { s with outCode := c, outValid := true }

/-- `CAL_LO <- lo; CAL_HI <- hi; CAL_EN <- 1` (R174). -/
def State.putCal (s : State) (lo hi : Code) : State :=
  { s with calLo := lo, calHi := hi, calEn := true }

/-- Write the hidden sequencer state, and with it `BUSY` (R34, R36). -/
def State.putSeq (s : State) (p : Option Progress) : State := { s with seq := p }

/-- Write what the host is going to do. -/
def State.putHost (s : State) (h : List HostAct) : State := { s with host := h }

/-- A link-sequence refusal: `ERR_SEQ <- 1` and nothing else (R134, R157, R194). -/
def State.refuseSeq (s : State) : State := { s with errSeq := true }

/-- A reserved-opcode refusal: `ERR_OP <- 1` and nothing else (R88, R195). -/
def State.refuseOp (s : State) : State := { s with errOp := true }

/-! The ports. -/

/-- `BUSY` (R34): 1 exactly while a command is in progress (R36; assumption log 10). -/
def State.busy (s : State) : Bool := s.seq.isSome

/-- What the master puts on a line: a level it drives, or nothing (R39). -/
inductive LineDrive where
  | driven (v : Bool)
  | released
deriving DecidableEq, Repr

/-- A level in output mode under a drive style: whether a 1 is driven or released (R39). -/
def driveLevel (style : DriveStyle) (v : Bool) : LineDrive :=
  match style with
  | .openDrain => if v then .released else .driven false
  | .pushPull => .driven v

/-- The master's contribution to the clock line: "the clock line carries `SCL_O`" (R39). -/
def State.clockLine (s : State) : LineDrive := driveLevel Config.driveStyle s.sclO

/-- The master's contribution to the data line: `SDA_O` in output mode, released in input mode (R39). -/
def State.dataLine (s : State) : LineDrive :=
  if s.sdaOe then driveLevel Config.driveStyle s.sdaO else .released

/-- The level the environment presents at the k-th coming sample: one it has fixed, else a free value (R30). -/
def State.sampleAt (s : State) (k : Nat) : Bool :=
  match s.samples[k]? with
  | some v => v
  | none => Config.draw (s.drawn + k)

/-- Pass one sample: the environment's list and the count move on. -/
def State.passSample (s : State) : State :=
  { s with samples := s.samples.tail, drawn := s.drawn + 1 }

/-! Micro-operations and register writes. -/

/-- One micro-operation: its register write and its one event (R110 to R115), from the sampled value so far. A hold is one
step whatever its duration (assumption log 14). -/
def MicroOp.run (m : MicroOp) (a : Option Bool) (s : State) : Option Bool × State :=
  match m with
  | .setScl v => (a, (s.putScl v).emit (.scl v))
  | .setSda v => (a, (s.putSda v).emit (.sda v))
  | .sdaMode m => (a, (s.putSdaOe (m == .output)).emit (.dir m))
  | .readSda => (some (s.sampleAt 0), s.passSample.emit (.sample (s.sampleAt 0)))
  | .hold d => (a, s.emit (.hold d))

/-- One register write of the pseudocode. PROBE's status is formed from `ACK` (R31, R151). -/
def Update.run (u : Update) (a : Option Bool) (s : State) : State :=
  match u with
  | .setLink l => s.putLink l
  | .ackFromSample => s.putAck (a.getD s.ack)
  | .setOut c => s.putOut c
  | .setResult v => s.putResult v
  | .resultFromAck => s.putResult (if s.ack then 1 else 0)
  | .probeStatus =>
    if s.ack then s.putResult Config.statusNotFound
    else (s.putResult Config.statusFound).putReady true
  | .setCal lo hi => s.putCal lo hi

/-! The sequencer. -/

/-- Run a list of lines from first to last; the sampled value goes along. -/
def runActs : List Act → Option Bool → State → Option Bool × State
  | [], a, s => (a, s)
  | .op m :: rest, a, s => runActs rest (m.run a s).1 (m.run a s).2
  | .upd u :: rest, a, s => runActs rest a (u.run a s)

/-- Do the register writes that come before the next micro-operation, and hold the rest for it; where no micro-operation
is left the command has completed and `BUSY` falls (R26, R34; assumption log 7). -/
def settle (cmd : Instr) (done : Nat) : List Act → Option Bool → State → State
  | [], _, s => s.putSeq none
  | .op m :: rest, a, s => s.putSeq (some ⟨cmd, done, .op m :: rest, a⟩)
  | .upd u :: rest, a, s => settle cmd done rest a (u.run a s)

/-- Accept a command: `BUSY` rises and the sequence stands before its first micro-operation (R26, R34). -/
def State.issue (cmd : Instr) (acts : List Act) (s : State) : State :=
  settle cmd 0 acts none s

/-- One step of the sequencer: "advances by one micro-operation per step" (R26); nothing where no command runs. -/
def State.advance (s : State) : State :=
  match s.seq with
  | none => s
  | some p =>
    match p.todo with
    | [] => s.putSeq none
    | .op m :: rest => settle p.cmd (p.done + 1) rest (m.run p.sampled s).1 (m.run p.sampled s).2
    | .upd u :: rest => settle p.cmd p.done rest p.sampled (u.run p.sampled s)

/-- Run the command in progress to completion (R34); the state itself where none runs. -/
def State.finish (s : State) : State :=
  match s.seq with
  | none => s
  | some p => (runActs p.todo p.sampled (s.putSeq none)).2

/-- Accept a command that needs the bus free: `LINK` IDLE or STOPPED, else refused as a whole (R131, R134, R157). -/
def State.issueClosed (cmd : Instr) (acts : List Act) (s : State) : State :=
  if s.link = .started then s.refuseSeq else s.issue cmd acts

/-- Accept a command that needs an open transaction: `LINK = STARTED`, else refused (R132, R133, R134). -/
def State.issueOpen (cmd : Instr) (acts : List Act) (s : State) : State :=
  if s.link = .started then s.issue cmd acts else s.refuseSeq

/-- The whole effect of a command from the state it is presented in, given how it is accepted: while `BUSY = 1` it "is held
off and has no effect until accepted"; accepted, it runs to completion (R34). -/
def complete (accept : State → State) (s : State) : Host.Outcome State Fault Refusal :=
  .next (if s.busy then s else (accept s).finish)

/-! Reset. -/

/-- The reset event: every register takes the value of R43 with the configuration given, the trace starts empty, and a
command in progress ends at once (R210, R211). What stands at the boundary is not the master's and stays
(assumption log 17). -/
def State.resetNow (devAddr : BitVec 7) (regSel : Byte) (s : State) : State :=
  { State.resetWith devAddr regSel with
    samples := s.samples
    drawn := s.drawn
    host := s.host
    reads := s.reads
    outReads := s.outReads }

end Sys2Proof.Machine
end

