-- ==== Sys2Proof/Machine/Flags.lean ====
section
/-! DEFINITION. Flags, and the status port that shows them to the host (spec/10_state.md R27, R35). -/

namespace Sys2Proof.Machine

/-- The encoding of `LINK`: "`0 = IDLE`, `1 = STARTED`, `2 = STOPPED`, `3` never occurs" (R27). -/
def LinkState.code : LinkState → BitVec 2
  | .idle => 0
  | .started => 1
  | .stopped => 2

/-- SET_CAL's validity test: `lo < hi and hi <= 4095` (R174). -/
def calValid (lo hi : BitVec 16) : Bool :=
  decide (lo.toNat < hi.toNat) && decide (hi.toNat ≤ Config.codeMax)

/-- Status word 0, STATUS: from bit 0 up, `BUSY`, `READY`, `CAL_EN`, `OUT_VALID`, `ACK`, `LINK` (two bits), `ERR_SEQ`,
`ERR_OP`, `SCL_O`, `SDA_O`, `SDA_OE`; bits 31:12 read 0 (R35). -/
def State.statusWord (s : State) : Word32 :=
  (BitVec.ofBool s.sdaOe ++ BitVec.ofBool s.sdaO ++ BitVec.ofBool s.sclO ++
    BitVec.ofBool s.errOp ++ BitVec.ofBool s.errSeq ++ s.link.code ++ BitVec.ofBool s.ack ++
    BitVec.ofBool s.outValid ++ BitVec.ofBool s.calEn ++ BitVec.ofBool s.ready ++
    BitVec.ofBool s.busy).setWidth 32

/-- Status word 2, CAL: `CAL_LO` in 11:0 and `CAL_HI` in 27:16 (R35). -/
def State.calWord (s : State) : Word32 := (s.calHi ++ 0#4 ++ s.calLo).setWidth 32

/-- What a read of `OUT_CODE` returns: the register, or an unspecified value while `OUT_VALID = 0` (R23). -/
def State.outSeen (s : State) : Code :=
  if s.outValid then s.outCode else Config.unwrittenOut s.outReads

/-- Status word 3, OUT: `OUT_CODE` in 11:0 (R35). -/
def State.outWord (s : State) : Word32 := s.outSeen.setWidth 32

/-- Status word 4, CONFIG: `DEV_ADDR` in 6:0 and `REG_SEL` in 15:8 (R35). -/
def State.configWord (s : State) : Word32 :=
  (s.regSel ++ 0#1 ++ s.devAddr).setWidth 32

/-- The status word of a number, and none for a number of no word (R35, R229). -/
def State.statusRead (s : State) (n : Nat) : Option Word32 :=
  match n with
  | 0 => some s.statusWord
  | 1 => some s.result
  | 2 => some s.calWord
  | 3 => some s.outWord
  | 4 => some s.configWord
  | _ => none

/-- The host's side of a read: what it got back is noted, and an unspecified `OUT_CODE` read is counted. The master's
own state does not change: "A status read has no side effect" (R35). -/
def State.noteRead (s : State) (n : Nat) (v : Word32) : State :=
  { s with
    reads := s.reads ++ [⟨n, v⟩]
    outReads := if n = 3 ∧ s.outValid = false then s.outReads + 1 else s.outReads }

end Sys2Proof.Machine
end

