-- ==== Sys2Proof/WellFormed.lean ====
section
/-! DEFINITION. Which instructions are well formed. "every value of every operand field of an assigned opcode is legal"
(spec/30_encoding.md R88), and the operand widths are in the types, so every command is well formed. -/

namespace Sys2Proof

/-- Every command is well formed (R88), and so is every wire pattern but one: `probeFrame 1` is spelled on the wire
exactly as STORE_FRAME_1 (`S 00000010 P`; R63 notes the coincidence of 0x02 with 7-bit address 0x01), and the wire
decoder reads that spelling as the store frame, whose bits are all fixed (assumption log 6). -/
def Instr.wellFormed : Instr → Bool
  | .probeFrame a => a != 1
  | .probe => true
  | .setCal _ _ => true
  | .writeCode _ => true
  | .writeCurrent _ => true
  | .store => true
  | .start => true
  | .stop => true
  | .txByte _ _ => true
  | .addrByte _ => true
  | .writeCodeFrame _ _ _ _ => true
  | .storeFrame1 => true
  | .storeFrame2 => true
  | .storeFrame3 _ => true

end Sys2Proof
end

