-- ==== Sys2Proof/Decode.lean ====
section
/-! DEFINITION. Decoding and encoding (spec/30_encoding.md). A command word is told apart by `CMD[35:32]` alone (R89) and
its operands are contiguous fields of `arg = CMD[31:0]` (R82 to R87); reserved opcodes are rejected by name (R88).
A wire pattern is told apart by its start and stop conditions and its bytes (R91 to R94). -/

namespace Sys2Proof

/-- Why a spelling is rejected. -/
inductive DecodeError where
  /-- `op` is 0x0 or 0x9 to 0xF, which "spell no command" (R88). -/
  | reservedOpcode (op : BitVec 4)
  /-- The symbols are none of the wire patterns of R91 to R94. -/
  | notAWirePattern
deriving DecidableEq, Repr

/-- `op = CMD[35:32]` (R80). -/
def opField (w : CommandWord) : BitVec 4 := w.extractLsb' 32 4

/-- `arg = CMD[31:0]` (R80). -/
def argField (w : CommandWord) : Word32 := w.extractLsb' 0 32

/-- Format K's `lo`, and format C's `code`: `arg[15:0]` (R83, R84). -/
def argLow (w : CommandWord) : BitVec 16 := w.extractLsb' 0 16

/-- Format K's `hi`: `arg[31:16]` (R84). -/
def argHigh (w : CommandWord) : BitVec 16 := w.extractLsb' 16 16

/-- Format B's `byte`: `arg[7:0]` (R86). -/
def argByte (w : CommandWord) : Byte := w.extractLsb' 0 8

/-- Format B's `NH`: `arg[8]` (R86). -/
def argNoHold (w : CommandWord) : Bool := w.getLsbD 8

/-- The command a word of the host port spells (R81), total on every word: "A decoder reads `CMD[35:32]` and nothing else
to identify the command" (R89), and bits a format ignores have no effect (R87). -/
def decodeCommand (w : CommandWord) : Except DecodeError Instr :=
  if opField w = 0x1 then .ok .probe
  else if opField w = 0x2 then .ok (.setCal (argLow w) (argHigh w))
  else if opField w = 0x3 then .ok (.writeCode (argLow w))
  else if opField w = 0x4 then .ok (.writeCurrent (argField w))
  else if opField w = 0x5 then .ok .store
  else if opField w = 0x6 then .ok .start
  else if opField w = 0x7 then .ok .stop
  else if opField w = 0x8 then .ok (.txByte (argByte w) (argNoHold w))
  else .error (.reservedOpcode (opField w))

/-- The 7-bit address field of an address byte `aaaaaaa0` (R91). -/
def addrOf (b : Byte) : BitVec 7 := b.extractLsb' 1 7

/-- The address byte of a 7-bit address: `(a << 1) & 0xFF`, whose bit 0 is the write direction, 0 (R61, R91, R150). -/
def addrByteOf (a : BitVec 7) : Byte := a ++ 0#1

/-- Whether the symbols after the address byte of STORE_FRAME_3 are its eight 0x00 bytes and the stop (R94). -/
def isStoreTail (f : List WireSym) : Bool :=
  f == List.replicate Config.storeCmd2Count (.byte Config.storeCmd2) ++ [.p]

/-- The wire pattern a list of symbols spells, total on every list. The patterns whose bits are all fixed come first
(assumption log 6); a direction bit of 1 is never sent (R61) and spells nothing. -/
def decodeWire (f : List WireSym) : Except DecodeError Instr :=
  if f = [.s, .byte Config.storeHead, .p] then .ok .storeFrame1
  else if f = [.s, .byte Config.storeAddr, .byte Config.storeCmd1, .p] then .ok .storeFrame2
  else match f with
    | [.byte b] =>
      if b.getLsbD 0 then .error .notAWirePattern else .ok (.addrByte (addrOf b))
    | [.s, .byte b, .p] =>
      if b.getLsbD 0 then .error .notAWirePattern else .ok (.probeFrame (addrOf b))
    | [.s, .byte b, .byte r, .byte lo, .byte hi, .p] =>
      if b.getLsbD 0 || lo.extractLsb' 0 4 != 0 then .error .notAWirePattern
      else .ok (.writeCodeFrame (addrOf b) r (lo.extractLsb' 4 4) hi)
    | .s :: .byte b :: rest =>
      if b.getLsbD 0 || !isStoreTail rest then .error .notAWirePattern
      else .ok (.storeFrame3 (addrOf b))
    | _ => .error .notAWirePattern

/-- Decoding, total on every spelling. -/
def decode : Encoded → Except DecodeError Instr
  | .command w => decodeCommand w
  | .wire f => decodeWire f

/-- The command word `{op, arg}` (R80). -/
def commandWord (op : BitVec 4) (arg : Word32) : CommandWord := (op ++ arg).setWidth 36

/-- What each instruction is written as, from the formats of R82 to R86 and the assembler's table of R96 ("The assembler
writes zero in every ignored bit"), and from the patterns of R91 to R94. -/
def encode : Instr → Encoded
  | .probe => .command (commandWord 0x1 0)
  | .setCal lo hi => .command (commandWord 0x2 ((hi ++ lo).setWidth 32))
  | .writeCode code => .command (commandWord 0x3 (code.setWidth 32))
  | .writeCurrent iIn => .command (commandWord 0x4 iIn)
  | .store => .command (commandWord 0x5 0)
  | .start => .command (commandWord 0x6 0)
  | .stop => .command (commandWord 0x7 0)
  | .txByte byte nh => .command (commandWord 0x8 ((BitVec.ofBool nh ++ byte).setWidth 32))
  | .addrByte a => .wire [.byte (addrByteOf a)]
  | .probeFrame a => .wire [.s, .byte (addrByteOf a), .p]
  | .writeCodeFrame a r l h =>
    .wire [.s, .byte (addrByteOf a), .byte r, .byte (l ++ 0#4), .byte h, .p]
  | .storeFrame1 => .wire [.s, .byte Config.storeHead, .p]
  | .storeFrame2 => .wire [.s, .byte Config.storeAddr, .byte Config.storeCmd1, .p]
  | .storeFrame3 a =>
    .wire (.s :: .byte (addrByteOf a) ::
      (List.replicate Config.storeCmd2Count (.byte Config.storeCmd2) ++ [.p]))

/-- The first `n` bytes of a table word, most significant byte first: the table prints a wire pattern in wire order with
its last bit as bit 0 (R98), so the first byte on the wire is the word's most significant (assumption log 15). -/
def tableBytes : Nat → Nat → List Byte
  | 0, _ => []
  | n + 1, w => BitVec.ofNat 8 (w >>> (8 * n)) :: tableBytes n w

/-- What a table word of `nbits` bits stands for: 36 bits (40 in whole bytes) are a command word; the widths of the wire
patterns are their bytes, between the start and stop conditions that the table leaves out (R98). Eight bits alone
are read as a whole one-byte transaction, so ADDR_BYTE, the same bits with no conditions, is not reached from here
(assumption log 6). A number that does not fit the 36-bit port is no command word. -/
def tableEncoded (nbits w : Nat) : Option Encoded :=
  if nbits = 36 ∨ nbits = 40 then
    if w < 2 ^ 36 then some (.command (BitVec.ofNat 36 w)) else none
  else if nbits = 8 ∨ nbits = 16 ∨ nbits = 32 ∨ nbits = 72 then
    some (.wire (.s :: ((tableBytes (nbits / 8) w).map .byte ++ [.p])))
  else none

/-- The instruction the decoder reads from a word numbered as spec/opcode_table.json numbers it. -/
def decodeTableWord (nbits w : Nat) : Option Instr :=
  match tableEncoded nbits w with
  | none => none
  | some e =>
    match decode e with
    | .ok i => some i
    | .error _ => none

end Sys2Proof
end

