-- ==== Sys2Proof/Machine/Operands.lean ====
section
/-! DEFINITION. Operand forms: the bytes of the register protocol (spec/42_device_register.md R150, R152), and the two
conversions of spec/43_conversion.md (R170 to R178), both as the spec's exact rationals and in its integer form. -/

namespace Sys2Proof.Machine

/-- `addr_byte()`, from the configured device address (R150). -/
def State.addrByte (s : State) : Byte := addrByteOf s.devAddr

/-- The low `CODE_BITS` bits of a 16-bit operand field: `v[11:0]` (R8, R11). -/
def codeField (v : BitVec 16) : Code := v.setWidth Config.codeBits

/-- `code & 0xFFF`: bits 15:12 are dropped without notice (R152, R178). -/
def maskCode (code : BitVec 16) : Code := codeField code

/-- The low byte of a code, sent first: `(c << 4) & 0xFF` (R65, R152). -/
def lowByte (c : Code) : Byte := (c <<< 4).setWidth 8

/-- The high byte of a code, sent second: `(c >> 4) & 0xFF` (R65, R152). -/
def highByte (c : Code) : Byte := (c >>> 4).setWidth 8

/-- `to_current(c)` as its numerator `25 × c` over the fixed denominator 4095 (R173). -/
def toCurrent (c : Code) : Word32 := BitVec.ofNat 32 (Config.iMax * c.toNat)

/-- The clamped operand: `clamp(sint(I_IN), 0, 1638400)` (R171). -/
def clampedIn (iIn : Word32) : Int :=
  clamp iIn.toInt 0 (Config.iMax * Config.curScale)

/-- The integer form of `to_code` on the clamped 16.16 operand (R177). -/
def codeOf (calEn : Bool) (calLo calHi : Code) (x : Int) : Int :=
  if calEn ∧ (Config.iLo * Config.curScale : Int) ≤ x ∧ x ≤ (Config.iHi * Config.curScale : Int) then
    calLo.toNat +
      ((x - Config.iLo * Config.curScale) * ((calHi.toNat : Int) - calLo.toNat)) /
        (Config.iSpan * Config.curScale)
  else
    (x * Config.codeMax) / (Config.iMax * Config.curScale)

/-- `to_code(I)` as an integer, for the operand word `I_IN` (R172, R177). -/
def State.toCodeInt (s : State) (iIn : Word32) : Int :=
  codeOf s.calEn s.calLo s.calHi (clampedIn iIn)

/-- `to_code(I)` as the 12-bit code WRITE_CURRENT writes (R175); the result is always in [0, 4095] (R172, corner a). -/
def State.toCode (s : State) (iIn : Word32) : Code := BitVec.ofInt Config.codeBits (s.toCodeInt iIn)

/-- The current an operand word denotes: `I = sint(I_IN) / 65536` milliamperes, exactly (R85, R170). -/
def currentOf (iIn : Word32) : ℚ := (iIn.toInt : ℚ) / Config.curScale

/-- `to_code(I)` on an exact rational current, as R172 writes it. The model runs the integer form of R177; that the two
agree is a statement of its own. -/
def State.toCodeExact (s : State) (i : ℚ) : Int :=
  let ic : ℚ := if i < 0 then 0 else if (Config.iMax : ℚ) < i then Config.iMax else i
  if s.calEn ∧ (Config.iLo : ℚ) ≤ ic ∧ ic ≤ (Config.iHi : ℚ) then
    s.calLo.toNat +
      ⌊(ic - Config.iLo) * ((s.calHi.toNat : ℚ) - s.calLo.toNat) / Config.iSpan⌋
  else
    ⌊ic * Config.codeMax / Config.iMax⌋

end Sys2Proof.Machine
end

