-- ==== Sys2Proof/Machine/Link.lean ====
section
/-! DEFINITION. The link family: START, STOP and TXBYTE (spec/41_link_protocol.md R130 to R137), as the sequences every other
command is built from and as host commands. -/

namespace Sys2Proof.Machine

/-- `START()` (R131). -/
def startActs : List Act :=
  [.op (.setSda true), .op (.setScl true), .op (.hold Config.tBefore),
   .op (.setSda false), .op (.hold Config.tAfter), .op (.setScl false),
   .upd (.setLink .started)]

/-- `STOP()` (R132). -/
def stopActs : List Act :=
  [.op (.setSda false), .op (.setScl true), .op (.hold Config.tBefore),
   .op (.setSda true), .op (.hold Config.tAfter),
   .upd (.setLink .stopped)]

/-- One data bit of TXBYTE: `SET_SDA(v); SET_SCL(1); if h: HOLD(T_BIT); SET_SCL(0)` (R133). -/
def bitActs (v h : Bool) : List Act :=
  [.op (.setSda v), .op (.setScl true)] ++ (if h then [.op (.hold Config.tBit)] else []) ++
    [.op (.setScl false)]

/-- The bits of a byte in the order they are sent, "most-significant first" (R64). -/
def bitsOf (b : Byte) : List Bool := [7, 6, 5, 4, 3, 2, 1, 0].map fun i => b.getLsbD i

/-- The acknowledgment slot of TXBYTE, with `ACK <- a` at its end (R133). -/
def ackActs : List Act :=
  [.op (.sdaMode .input), .op (.setScl true), .op .readSda, .op (.setScl false),
   .op (.sdaMode .output), .upd .ackFromSample]

/-- `TXBYTE(b, h)` as a subroutine (R133). -/
def txByteActs (b : Byte) (h : Bool) : List Act :=
  ((bitsOf b).flatMap fun v => bitActs v h) ++ ackActs

/-- A transaction: everything from one start condition to the next stop condition, its bytes each with or without the
per-bit hold (R67, the glossary of 00_scope.md). -/
def transactionActs (bytes : List (Byte × Bool)) : List Act :=
  startActs ++ (bytes.flatMap fun x => txByteActs x.1 x.2) ++ stopActs

/-- Accept START: IDLE or STOPPED executes, STARTED is refused (R130, R131, R134). -/
def acceptStart (s : State) : State := s.issueClosed .start startActs

/-- Accept STOP: STARTED executes, IDLE and STOPPED are refused (R130, R132, R134). -/
def acceptStop (s : State) : State := s.issueOpen .stop stopActs

/-- Accept TXBYTE: STARTED executes, IDLE and STOPPED are refused; `NH` 0 sends with the per-bit hold, and as a host command
it also does `RESULT <- zext_32(a)` (R86, R130, R133, R134). -/
def acceptTxByte (byte : Byte) (nh : Bool) (s : State) : State :=
  s.issueOpen (.txByte byte nh) (txByteActs byte (!nh) ++ [.upd .resultFromAck])

/-- START, from acceptance to completion (R131). -/
def execStart (s : State) : Host.Outcome State Fault Refusal := complete acceptStart s

/-- STOP, from acceptance to completion (R132). -/
def execStop (s : State) : Host.Outcome State Fault Refusal := complete acceptStop s

/-- TXBYTE, from acceptance to completion (R133). -/
def execTxByte (byte : Byte) (nh : Bool) (s : State) : Host.Outcome State Fault Refusal :=
  complete (acceptTxByte byte nh) s

end Sys2Proof.Machine
end

