-- ==== Sys2Proof/Machine/Device.lean ====
section
/-! DEFINITION. The device register family: PROBE, WRITE_CODE and STORE (spec/42_device_register.md R150 to R158). Each needs
`LINK` IDLE or STOPPED and is refused as a whole otherwise (R157); none acts on an acknowledgment but PROBE (R154). -/

namespace Sys2Proof.Machine

/-- The bytes of the PROBE transaction (R92, R151). -/
def probeBytes (a : Byte) : List (Byte × Bool) := [(a, true)]

/-- The four bytes of the WRITE_CODE transaction in wire order, all with the per-bit hold (R67, R93, R152). -/
def writeBytes (a r lo hi : Byte) : List (Byte × Bool) :=
  [(a, true), (r, true), (lo, true), (hi, true)]

/-- The byte of the first store transaction (R94, R153). -/
def storeBytes1 : List (Byte × Bool) := [(Config.storeHead, true)]

/-- The bytes of the second store transaction (R94, R153). -/
def storeBytes2 : List (Byte × Bool) := [(Config.storeAddr, true), (Config.storeCmd1, true)]

/-- The bytes of the third store transaction: the address byte with the per-bit hold, then eight 0x00 bytes without it
(R94, R153, R220, decision D20). -/
def storeBytes3 (a : Byte) : List (Byte × Bool) :=
  (a, true) :: List.replicate Config.storeCmd2Count (Config.storeCmd2, false)

/-- The lines of `PROBE()` (R151). -/
def probeActs (s : State) : List Act :=
  transactionActs (probeBytes s.addrByte) ++ [.upd .probeStatus]

/-- The lines of `WRITE_CODE(c)` for a masked code (R152). -/
def writeCodeActs (s : State) (c : Code) : List Act :=
  [.upd (.setOut c)] ++
    transactionActs (writeBytes s.addrByte s.regSel (lowByte c) (highByte c)) ++
    [.upd (.setResult (toCurrent c))]

/-- The lines of `STORE()`: three transactions, then the settle delay (R153). -/
def storeActs (s : State) : List Act :=
  transactionActs storeBytes1 ++ transactionActs storeBytes2 ++
    transactionActs (storeBytes3 s.addrByte) ++ [.op (.hold Config.tStore)]

/-- Accept PROBE (R151, R157). -/
def acceptProbe (s : State) : State := s.issueClosed .probe (probeActs s)

/-- Accept WRITE_CODE: the operand is masked to 12 bits (R152, R157). -/
def acceptWriteCode (code : BitVec 16) (s : State) : State :=
  s.issueClosed (.writeCode code) (writeCodeActs s (maskCode code))

/-- Accept STORE (R153, R157). -/
def acceptStore (s : State) : State := s.issueClosed .store (storeActs s)

/-- PROBE, from acceptance to completion (R151). -/
def execProbe (s : State) : Host.Outcome State Fault Refusal := complete acceptProbe s

/-- WRITE_CODE, from acceptance to completion (R152). -/
def execWriteCode (code : BitVec 16) (s : State) : Host.Outcome State Fault Refusal :=
  complete (acceptWriteCode code) s

/-- STORE, from acceptance to completion (R153). -/
def execStore (s : State) : Host.Outcome State Fault Refusal := complete acceptStore s

end Sys2Proof.Machine
end

