-- ==== Sys2Proof/Machine/Conversion.lean ====
section
/-! DEFINITION. The conversion family: SET_CAL and WRITE_CURRENT (spec/43_conversion.md R174, R175). -/

namespace Sys2Proof.Machine

/-- Accept SET_CAL, in every `LINK` state: a valid pair is stored and enables calibrated mode, an invalid one changes nothing
and says nothing (R174, R192). It has no micro-operation, so it has completed when it has been accepted (assumption
log 8). -/
def acceptSetCal (lo hi : BitVec 16) (s : State) : State :=
  s.issue (.setCal lo hi)
    (if calValid lo hi then [.upd (.setCal (codeField lo) (codeField hi))] else [])

/-- Accept WRITE_CURRENT: the converted code goes through WRITE_CODE in full, mask included, then `RESULT` takes the code
(R157, R175). -/
def acceptWriteCurrent (iIn : Word32) (s : State) : State :=
  s.issueClosed (.writeCurrent iIn)
    (writeCodeActs s (s.toCode iIn) ++ [.upd (.setResult ((s.toCode iIn).setWidth 32))])

/-- SET_CAL, from acceptance to completion (R174). -/
def execSetCal (lo hi : BitVec 16) (s : State) : Host.Outcome State Fault Refusal :=
  complete (acceptSetCal lo hi) s

/-- WRITE_CURRENT, from acceptance to completion (R175). -/
def execWriteCurrent (iIn : Word32) (s : State) : Host.Outcome State Fault Refusal :=
  complete (acceptWriteCurrent iIn) s

end Sys2Proof.Machine
end

