-- ==== Sys2Proof/Machine/Frames.lean ====
section
/-! DEFINITION. The wire-pattern family: the sequencer sends one byte cell or one frame of spec/30_encoding.md R91 to R94 by
itself, with the bytes the pattern holds. Commands send these frames with `DEV_ADDR`, `REG_SEL` and the code's bytes
in their fields. A frame is its subroutine calls and nothing more: no `RESULT`, no `READY`, no `OUT_CODE`. Refusals are
those of the link operations it begins with (R134; assumption log 5). -/

namespace Sys2Proof.Machine

/-- Accept ADDR_BYTE: `TXBYTE(addr_byte(), true)` as a subroutine (R91, R133, R150). -/
def acceptAddrByte (a : BitVec 7) (s : State) : State :=
  s.issueOpen (.addrByte a) (txByteActs (addrByteOf a) true)

/-- Accept PROBE_FRAME (R92). -/
def acceptProbeFrame (a : BitVec 7) (s : State) : State :=
  s.issueClosed (.probeFrame a) (transactionActs (probeBytes (addrByteOf a)))

/-- Accept WRITE_CODE_FRAME: the low byte is `llll0000` (R93). -/
def acceptWriteCodeFrame (a : BitVec 7) (r : Byte) (l : BitVec 4) (h : Byte) (s : State) : State :=
  s.issueClosed (.writeCodeFrame a r l h)
    (transactionActs (writeBytes (addrByteOf a) r (l ++ 0#4) h))

/-- Accept STORE_FRAME_1 (R94). -/
def acceptStoreFrame1 (s : State) : State :=
  s.issueClosed .storeFrame1 (transactionActs storeBytes1)

/-- Accept STORE_FRAME_2 (R94). -/
def acceptStoreFrame2 (s : State) : State :=
  s.issueClosed .storeFrame2 (transactionActs storeBytes2)

/-- Accept STORE_FRAME_3; the settle delay that follows it is STORE's (R94). -/
def acceptStoreFrame3 (a : BitVec 7) (s : State) : State :=
  s.issueClosed (.storeFrame3 a) (transactionActs (storeBytes3 (addrByteOf a)))

/-- ADDR_BYTE, from acceptance to completion (R91). -/
def execAddrByte (a : BitVec 7) (s : State) : Host.Outcome State Fault Refusal :=
  complete (acceptAddrByte a) s

/-- PROBE_FRAME, from acceptance to completion (R92). -/
def execProbeFrame (a : BitVec 7) (s : State) : Host.Outcome State Fault Refusal :=
  complete (acceptProbeFrame a) s

/-- WRITE_CODE_FRAME, from acceptance to completion (R93). -/
def execWriteCodeFrame (a : BitVec 7) (r : Byte) (l : BitVec 4) (h : Byte) (s : State) :
    Host.Outcome State Fault Refusal :=
  complete (acceptWriteCodeFrame a r l h) s

/-- STORE_FRAME_1, from acceptance to completion (R94). -/
def execStoreFrame1 (s : State) : Host.Outcome State Fault Refusal := complete acceptStoreFrame1 s

/-- STORE_FRAME_2, from acceptance to completion (R94). -/
def execStoreFrame2 (s : State) : Host.Outcome State Fault Refusal := complete acceptStoreFrame2 s

/-- STORE_FRAME_3, from acceptance to completion (R94). -/
def execStoreFrame3 (a : BitVec 7) (s : State) : Host.Outcome State Fault Refusal :=
  complete (acceptStoreFrame3 a) s

end Sys2Proof.Machine
end

