-- ==== Sys2Proof/Machine/Dispatch.lean ====
section
/-! DEFINITION. One arm per row of spec/opcode_table.json: the meaning of each instruction. -/

namespace Sys2Proof.Machine

def exec (i : Instr) (s : State) : Host.Outcome State Fault Refusal :=
  match i with
  | .probe => Sys2Proof.Machine.execProbe s
  | .setCal lo hi => Sys2Proof.Machine.execSetCal lo hi s
  | .writeCode code => Sys2Proof.Machine.execWriteCode code s
  | .writeCurrent iIn => Sys2Proof.Machine.execWriteCurrent iIn s
  | .store => Sys2Proof.Machine.execStore s
  | .start => Sys2Proof.Machine.execStart s
  | .stop => Sys2Proof.Machine.execStop s
  | .txByte byte nh => Sys2Proof.Machine.execTxByte byte nh s
  | .addrByte a => Sys2Proof.Machine.execAddrByte a s
  | .probeFrame a => Sys2Proof.Machine.execProbeFrame a s
  | .writeCodeFrame a r l h => Sys2Proof.Machine.execWriteCodeFrame a r l h s
  | .storeFrame1 => Sys2Proof.Machine.execStoreFrame1 s
  | .storeFrame2 => Sys2Proof.Machine.execStoreFrame2 s
  | .storeFrame3 a => Sys2Proof.Machine.execStoreFrame3 a s

end Sys2Proof.Machine
end

