-- ==== Sys2Proof/Machine/HostPort.lean ====
section
/-! DEFINITION. The host's side of a step: what the host does next decides what the master does
(spec/70_reset_and_hazards.md R229), the master running one micro-operation a step while `BUSY = 1` (spec/10_state.md
R26, R34). -/

namespace Sys2Proof.Machine

/-- Accept an instruction: the acceptance each meaning in `exec` completes. -/
def accept (i : Instr) (s : State) : State :=
  match i with
  | .probe => acceptProbe s
  | .setCal lo hi => acceptSetCal lo hi s
  | .writeCode code => acceptWriteCode code s
  | .writeCurrent iIn => acceptWriteCurrent iIn s
  | .store => acceptStore s
  | .start => acceptStart s
  | .stop => acceptStop s
  | .txByte byte nh => acceptTxByte byte nh s
  | .addrByte a => acceptAddrByte a s
  | .probeFrame a => acceptProbeFrame a s
  | .writeCodeFrame a r l h => acceptWriteCodeFrame a r l h s
  | .storeFrame1 => acceptStoreFrame1 s
  | .storeFrame2 => acceptStoreFrame2 s
  | .storeFrame3 a => acceptStoreFrame3 a s

/-- What a step is to do. -/
inductive Fetched where
  /-- Run this instruction from acceptance to completion in this state. -/
  | run (i : Instr) (s : State)
  /-- The step has been done. -/
  | done (s : State)
  /-- The machine stops. -/
  | stops (r : Fault)
  /-- The step has no meaning. -/
  | refuses (r : Refusal)
deriving DecidableEq, Repr

/-- Take a command word the host blocks on: a reserved opcode is refused by its flag (R88), any other word's command runs to
completion while the host waits (R34, R215; assumption log 9). -/
def takeCall (w : CommandWord) (s : State) : Fetched :=
  match decode (.command w) with
  | .ok i => .run i s
  | .error _ => .done s.refuseOp

/-- Take a command word and let the host go on: the command is accepted, and its micro-operations follow one a step (R26,
R34). -/
def takePost (w : CommandWord) (s : State) : Fetched :=
  match decode (.command w) with
  | .ok i => .done (accept i s)
  | .error _ => .done s.refuseOp

/-- Take a wire pattern on the model's own bench (assumption log 5). -/
def takeFrame (f : List WireSym) (s : State) : Fetched :=
  match decode (.wire f) with
  | .ok i => .run i s
  | .error _ => .refuses .notAWirePattern

/-- Answer a status read; a word that does not exist has no meaning (R35, R229; assumption log 12). -/
def takeRead (n : Nat) (s : State) : Fetched :=
  match s.statusRead n with
  | some v => .done (s.noteRead n v)
  | none => .stops (.noSuchStatusWord n)

/-- What the step is to do, from what the host does next. A command presented while `BUSY = 1` stays on the port and the
sequencer goes on (R34); reads and resets are taken at any time (R35, R211); with nothing from the host the sequencer
goes on, or the master stays idle (R206). -/
def State.fetch (s : State) : Fetched :=
  match s.host with
  | [] => .done s.advance
  | .wait :: rest => .done (s.putHost rest).advance
  | .reset devAddr regSel :: rest => .done ((s.putHost rest).resetNow devAddr regSel)
  | .read n :: rest => takeRead n (s.putHost rest)
  | .call w :: rest => if s.busy then .done s.advance else takeCall w (s.putHost rest)
  | .post w :: rest => if s.busy then .done s.advance else takePost w (s.putHost rest)
  | .frame f :: rest => if s.busy then .done s.advance else takeFrame f (s.putHost rest)

/-- The host is about to do one more thing, and the master is ready for it: no command is in progress. -/
def State.present (s : State) (h : HostAct) : State :=
  (s.putSeq none).putHost (h :: s.host)

/-- What the host does to have a spelling run next: call a command word, put a wire pattern on the bench. -/
def presentation : Encoded → HostAct
  | .command w => .call w
  | .wire f => .frame f

end Sys2Proof.Machine
end

