-- ==== Sys2Proof/Machine/Step.lean ====
section
/-! DEFINITION. One step of the machine, and how an instruction of the opcode table is put where the step takes its next. -/

namespace Sys2Proof.Machine

/-- One step: do what the host's next act asks, running a called instruction by `exec`. -/
def step (s : State) : Host.Outcome State Fault Refusal :=
  match s.fetch with
  | .run i t => exec i t
  | .done t => .next t
  | .stops r => .fault r
  | .refuses r => .refused r

/-- The state with a table word as the host's next act and no command in progress: a command word called on the port, a
wire pattern on the model's own bench (assumption logs 9 and 15). A width the table does not have leaves an empty wire pattern, which the step
refuses. -/
def State.withFetchWord (s : State) (nbits w : Nat) : State :=
  s.present (presentation ((tableEncoded nbits w).getD (.wire [])))

end Sys2Proof.Machine
end

