-- ==== Sys2Proof/Machine/Trace.lean ====
section
/-! DEFINITION. Measures of a trace: the sums of hold durations and the counts of spec/70_reset_and_hazards.md R228, and the
elapsed time with `T_STEP` left open (R219, R228; spec/10_state.md R38). -/

namespace Sys2Proof.Machine

/-- The duration of an event: that of a HOLD, and none of any other (R38). -/
def Event.holdTime : Event → Nat
  | .hold d => d
  | .scl _ => 0
  | .sda _ => 0
  | .dir _ => 0
  | .sample _ => 0

/-- The sum of the hold durations of a trace, in nanoseconds (R228). -/
def holdSum (es : List Event) : Nat := (es.map Event.holdTime).sum

/-- How many `HOLD(d)` events of one duration a trace has (R136). -/
def holdCount (d : Nat) (es : List Event) : Nat := es.count (.hold d)

/-- How many `SDA` events a trace has (R136). -/
def sdaCount (es : List Event) : Nat :=
  es.count (.sda false) + es.count (.sda true)

/-- How many `SAMPLE` events a trace has (R136). -/
def sampleCount (es : List Event) : Nat :=
  es.count (.sample false) + es.count (.sample true)

/-- How many `DIR` events a trace has (R136). -/
def dirCount (es : List Event) : Nat :=
  es.count (.dir .input) + es.count (.dir .output)

/-- The level the clock line stands at after a trace, from the level before it. -/
def clockAfter : Bool → List Event → Bool
  | c, [] => c
  | _, .scl v :: es => clockAfter v es
  | c, _ :: es => clockAfter c es

/-- How often the clock line rises in a trace, from the level before it (R136). -/
def clockRises : Bool → List Event → Nat
  | _, [] => 0
  | c, .scl v :: es => (if !c && v then 1 else 0) + clockRises v es
  | c, _ :: es => clockRises c es

/-- How often the clock line falls in a trace, from the level before it (R136). -/
def clockFalls : Bool → List Event → Nat
  | _, [] => 0
  | c, .scl v :: es => (if c && !v then 1 else 0) + clockFalls v es
  | c, _ :: es => clockFalls c es

/-- The time a trace takes, in nanoseconds: its holds, and on top of them the open `T_STEP` for each event, so that no
interval R219 names is zero for want of a hold, the one between STORE's stop and its next start among them (R219, R228;
assumption log 11). No rule and no operation depends on it (R6). -/
def elapsed (es : List Event) : NNRat := holdSum es + Config.tStep * es.length

end Sys2Proof.Machine
end

