-- ==== Sys2Proof/Safety.lean ====
section
/-! DEFINITION. The terms in which claims are made: the event lists the spec prints for each operation, what a target chip
reads off the lines, the states a bus command leaves, the invariants of spec/10_state.md R40 and the premises of
spec/70_reset_and_hazards.md R230. -/

namespace Sys2Proof.Machine

/-! The event lists of spec/41_link_protocol.md, and the abbreviation `S b/a ... P` of spec/95_test_vectors.md. -/

/-- The six events of START (R131): `SDA(1) SCL(1) HOLD(2000) SDA(0) HOLD(3000) SCL(0)`. -/
def startEvents : List Event :=
  [.sda true, .scl true, .hold Config.tBefore, .sda false, .hold Config.tAfter, .scl false]

/-- The five events of STOP (R132): `SDA(0) SCL(1) HOLD(2000) SDA(1) HOLD(3000)`. -/
def stopEvents : List Event :=
  [.sda false, .scl true, .hold Config.tBefore, .sda true, .hold Config.tAfter]

/-- The events of one data bit (R133): `SDA(v) SCL(1) HOLD(5000) SCL(0)`, or without the hold. -/
def bitEvents (h v : Bool) : List Event :=
  if h then [.sda v, .scl true, .hold Config.tBit, .scl false]
  else [.sda v, .scl true, .scl false]

/-- The events of a byte cell whose acknowledgment is sampled as `a` (R133): bits 7 down to 0, then
`DIR(in) SCL(1) SAMPLE(a) SCL(0) DIR(out)`. -/
def byteEvents (b : Byte) (h a : Bool) : List Event :=
  bitEvents h (b.getLsbD 7) ++ bitEvents h (b.getLsbD 6) ++ bitEvents h (b.getLsbD 5) ++
    bitEvents h (b.getLsbD 4) ++ bitEvents h (b.getLsbD 3) ++ bitEvents h (b.getLsbD 2) ++
    bitEvents h (b.getLsbD 1) ++ bitEvents h (b.getLsbD 0) ++
    [.dir .input, .scl true, .sample a, .scl false, .dir .output]

/-- One byte of a transaction as the host can see it on the lines: the byte, whether with the per-bit hold, and the
acknowledgment sampled. -/
structure Cell where
  byte : Byte
  hold : Bool
  ack : Bool
deriving DecidableEq, Repr

/-- The events of a transaction: `S`, its byte cells, `P`. -/
def transactionEvents (cells : List Cell) : List Event :=
  startEvents ++ (cells.flatMap fun c => byteEvents c.byte c.hold c.ack) ++ stopEvents

/-- The events of PROBE (R92, R151), its byte acknowledged as the k-th coming sample says. -/
def probeEvents (a : Byte) (ack : Nat → Bool) : List Event :=
  transactionEvents [⟨a, true, ack 0⟩]

/-- The events of the four-byte write (R93, R152). -/
def writeEvents (a r lo hi : Byte) (ack : Nat → Bool) : List Event :=
  transactionEvents [⟨a, true, ack 0⟩, ⟨r, true, ack 1⟩, ⟨lo, true, ack 2⟩, ⟨hi, true, ack 3⟩]

/-- The events of the first store transaction (R94). -/
def storeEvents1 (ack : Nat → Bool) : List Event :=
  transactionEvents [⟨Config.storeHead, true, ack 0⟩]

/-- The events of the second store transaction (R94). -/
def storeEvents2 (ack : Nat → Bool) : List Event :=
  transactionEvents [⟨Config.storeAddr, true, ack 0⟩, ⟨Config.storeCmd1, true, ack 1⟩]

/-- The events of the third store transaction: the address byte with the hold, then eight 0x00 bytes without it (R94,
R153). -/
def storeEvents3 (a : Byte) (ack : Nat → Bool) : List Event :=
  transactionEvents
    [⟨a, true, ack 0⟩,
     ⟨Config.storeCmd2, false, ack 1⟩, ⟨Config.storeCmd2, false, ack 2⟩,
     ⟨Config.storeCmd2, false, ack 3⟩, ⟨Config.storeCmd2, false, ack 4⟩,
     ⟨Config.storeCmd2, false, ack 5⟩, ⟨Config.storeCmd2, false, ack 6⟩,
     ⟨Config.storeCmd2, false, ack 7⟩, ⟨Config.storeCmd2, false, ack 8⟩]

/-- The events of STORE: its three transactions, then the settle delay (R94, R153). -/
def storeEvents (a : Byte) (ack : Nat → Bool) : List Event :=
  storeEvents1 ack ++ storeEvents2 (fun k => ack (1 + k)) ++
    storeEvents3 a (fun k => ack (3 + k)) ++ [.hold Config.tStore]

/-! The states bus commands leave. -/

/-- The state with `n` samples passed, the last of them in `ACK`, and the events of a command appended to the trace. -/
def State.busRun (s : State) (n : Nat) (es : List Event) : State :=
  { s with
    ack := if n = 0 then s.ack else s.sampleAt (n - 1)
    samples := s.samples.drop n
    drawn := s.drawn + n
    trace := s.trace ++ es }

/-- What `n` whole bytes of closed transactions leave: both lines high in output mode and `LINK = STOPPED` (R132). -/
def State.closedRun (s : State) (n : Nat) (es : List Event) : State :=
  { s.busRun n es with sclO := true, sdaO := true, sdaOe := true, link := .stopped }

/-- The events a state's trace has beyond those of an earlier state of the run. -/
def State.newEvents (t s : State) : List Event := t.trace.drop s.trace.length

/-- An event with the level of a sample left out: all the master itself decides of it (R30). -/
def Event.unsampled : Event → Event
  | .sample _ => .sample false
  | .scl v => .scl v
  | .sda v => .sda v
  | .dir m => .dir m
  | .hold d => .hold d

/-! What a target chip reads off the lines: R39 and R90 read backwards from the trace. -/

/-- What is read off the lines, in order. -/
inductive WireMark where
  /-- A start condition: data falls while the clock is high. -/
  | start
  /-- A stop condition: data rises while the clock is high. -/
  | stop
  /-- A clock pulse in output mode: a data bit. -/
  | bit (v : Bool)
  /-- A clock pulse in input mode on which the data line was sampled: an acknowledgment slot. -/
  | ack (v : Bool)
  /-- What the spec says never happens: a switch of direction while the clock is high, the data latch set in input mode
  (R112), a sample outside an acknowledgment pulse (R114), a pulse in input mode with no sample. -/
  | violation
deriving DecidableEq, Repr

/-- A reader of the lines: their levels and direction, and the pulse that has begun with the last rise of the clock. -/
structure Wire where
  scl : Bool
  sda : Bool
  out : Bool
  pulse : Option WireMark
deriving DecidableEq, Repr

/-- What the reader makes of one event. -/
def Wire.see (w : Wire) : Event → Wire × List WireMark
  | .scl true =>
    if w.scl then (w, [])
    else ({ w with scl := true, pulse := some (if w.out then .bit w.sda else .violation) }, [])
  | .scl false =>
    if w.scl then ({ w with scl := false, pulse := none }, w.pulse.toList) else (w, [])
  | .sda v =>
    if !w.out then ({ w with sda := v }, [.violation])
    else if w.scl && w.sda && !v then ({ w with sda := v, pulse := none }, [.start])
    else if w.scl && !w.sda && v then ({ w with sda := v, pulse := none }, [.stop])
    else ({ w with sda := v }, [])
  | .dir m =>
    ({ w with out := m == .output },
      if w.scl && (w.out != (m == .output)) then [.violation] else [])
  | .sample v =>
    if w.out || !w.scl then (w, [.violation]) else ({ w with pulse := some (.ack v) }, [])
  | .hold _ => (w, [])

/-- What the reader makes of a list of events. -/
def Wire.read : Wire → List Event → Wire × List WireMark
  | w, [] => (w, [])
  | w, e :: es => (((w.see e).1.read es).1, (w.see e).2 ++ ((w.see e).1.read es).2)

/-- The reader of the lines of a state between commands. -/
def State.wire (s : State) : Wire := ⟨s.sclO, s.sdaO, s.sdaOe, none⟩

/-- The marks of a byte cell `b7 b6 b5 b4 b3 b2 b1 b0 A` (R90). -/
def cellMarks (b : Byte) (a : Bool) : List WireMark :=
  [.bit (b.getLsbD 7), .bit (b.getLsbD 6), .bit (b.getLsbD 5), .bit (b.getLsbD 4),
   .bit (b.getLsbD 3), .bit (b.getLsbD 2), .bit (b.getLsbD 1), .bit (b.getLsbD 0), .ack a]

/-- The marks of a transaction of bytes with their acknowledgments: `S  b A  ...  P` (R92). -/
def frameMarks (cells : List (Byte × Bool)) : List WireMark :=
  [.start] ++ (cells.flatMap fun c => cellMarks c.1 c.2) ++ [.stop]

/-- How many clock pulses were read: data bits and acknowledgment slots (R90, R136). -/
def pulseCount (ms : List WireMark) : Nat :=
  ms.countP fun m =>
    match m with
    | .bit _ => true
    | .ack _ => true
    | .start => false
    | .stop => false
    | .violation => false

/-! Invariants. -/

/-- R40 (a), (b), (c): the data line is in output mode; with a transaction open the clock is low; with none both lines are
high. -/
def State.linesOk (s : State) : Bool :=
  s.sdaOe && (if s.link = .started then !s.sclO else s.sclO && s.sdaO)

/-- R21, R40 (d): `CAL_LO < CAL_HI`; `CAL_HI <= 4095` is the register's width. -/
def State.calOk (s : State) : Bool := decide (s.calLo.toNat < s.calHi.toNat)

/-- A register write still to do keeps the calibration invariant. -/
def Act.calOk : Act → Bool
  | .upd (.setCal lo hi) => decide (lo.toNat < hi.toNat)
  | .upd (.setLink _) => true
  | .upd .ackFromSample => true
  | .upd (.setOut _) => true
  | .upd (.setResult _) => true
  | .upd .resultFromAck => true
  | .upd .probeStatus => true
  | .op _ => true

/-- A command in progress stands before a micro-operation (R26), and what it has still to do keeps the calibration
invariant. -/
def Progress.ok (p : Progress) : Bool :=
  (match p.todo with
    | .op _ :: _ => true
    | .upd _ :: _ => false
    | [] => false) && p.todo.all Act.calOk

/-- The invariant every step keeps: R21 now; R40 (a) to (c) in the state between commands, which is this state where no
command runs and the state the command in progress will leave where one does; and a command in progress stands
before a micro-operation. -/
def State.inv (s : State) : Bool :=
  s.calOk && s.finish.linesOk &&
    (match s.seq with
      | none => true
      | some p => p.ok)

/-- Whether the host's next act presents a command or a wire pattern. -/
def HostAct.presents : HostAct → Bool
  | .call _ => true
  | .post _ => true
  | .frame _ => true
  | .read _ => false
  | .wait => false
  | .reset _ _ => false

/-- A run is over: "`BUSY = 0` and no command is pending" (R213). -/
def State.over (s : State) : Bool := !s.busy && !s.host.any HostAct.presents

/-- Neither error flag is set: a run that ends with one set "should not count as a good run" (R230). -/
def State.noRefusal (s : State) : Bool := !s.errSeq && !s.errOp

/-- A quiescent state: R230 (b). -/
def State.quiescent (s : State) : Bool := s.over && s.linesOk && s.calOk && s.noRefusal

/-- A clocked realisation's clock has "a clock whose period divides 1 µs" (R218): its frequency is a positive multiple of
1 MHz. -/
def clockFits : Prop := 0 < Config.clkHz ∧ 1000000 ∣ Config.clkHz

end Sys2Proof.Machine
end

