-- ==== Sys2Proof/Certificates/Slice0/Obligations.lean ====
section
/-! DEFINITION. The statements for the provers, taken from the numbered rules of spec/. "Idle" in a docstring means `BUSY = 0`;
"closed" means `LINK` IDLE or STOPPED. -/

open Sys2Proof Sys2Proof.Machine

/-! Encoding. -/

/-- The words of spec/95_test_vectors.md V70 to V78 and the wire patterns of R92 to R94 decode as those vectors say. -/
def Obligations.SpecWordsDecode : Prop :=
  decodeCommand 0x100000000 = .ok .probe ∧
  decodeCommand 0x1DEADBEEF = .ok .probe ∧
  decodeCommand 0x20CCD028F = .ok (.setCal 655 3277) ∧
  decodeCommand 0x300000ABC = .ok (.writeCode 0x0ABC) ∧
  decodeCommand 0x312340ABC = .ok (.writeCode 0x0ABC) ∧
  decodeCommand 0x4FFFB0000 = .ok (.writeCurrent 0xFFFB0000) ∧
  decodeCommand 0x500000000 = .ok .store ∧
  decodeCommand 0x600000000 = .ok .start ∧
  decodeCommand 0x700000000 = .ok .stop ∧
  decodeCommand 0x8000001A5 = .ok (.txByte 0xA5 true) ∧
  decodeWire [.s, .byte 0xB0, .p] = .ok (.probeFrame 0x58) ∧
  decodeWire [.s, .byte 0xB0, .byte 0x02, .byte 0xC0, .byte 0xAB, .p] =
    .ok (.writeCodeFrame 0x58 0x02 0xC 0xAB) ∧
  decodeWire [.s, .byte 0x10, .byte 0x03, .p] = .ok .storeFrame2

/-- No bit of an encoding is dropped: decoding what a well-formed instruction is written as gives it back, for all fourteen
rows of the opcode table and every value of every operand. -/
def Obligations.DecodeEncodeRoundTrip : Prop :=
  ∀ i : Instr, i.wellFormed = true → decode (encode i) = .ok i

/-- R82, R84, R86: a word of an assigned opcode is read as its format says, its operands from contiguous fields of `arg` and
from nothing else, so that every other bit of the word is ignored. -/
def Obligations.DecodeReadsContiguousFields : Prop :=
  ∀ w : CommandWord,
    (w.toNat / 2 ^ 32 = 1 → decodeCommand w = .ok .probe) ∧
    (w.toNat / 2 ^ 32 = 2 → decodeCommand w =
      .ok (.setCal (BitVec.ofNat 16 w.toNat) (BitVec.ofNat 16 (w.toNat / 2 ^ 16)))) ∧
    (w.toNat / 2 ^ 32 = 3 → decodeCommand w = .ok (.writeCode (BitVec.ofNat 16 w.toNat))) ∧
    (w.toNat / 2 ^ 32 = 4 → decodeCommand w = .ok (.writeCurrent (BitVec.ofNat 32 w.toNat))) ∧
    (w.toNat / 2 ^ 32 = 5 → decodeCommand w = .ok .store) ∧
    (w.toNat / 2 ^ 32 = 6 → decodeCommand w = .ok .start) ∧
    (w.toNat / 2 ^ 32 = 7 → decodeCommand w = .ok .stop) ∧
    (w.toNat / 2 ^ 32 = 8 → decodeCommand w =
      .ok (.txByte (BitVec.ofNat 8 w.toNat) (decide (w.toNat / 2 ^ 8 % 2 = 1))))

/-- R88: a word with opcode 0x0 or 0x9 to 0xF, called or posted on an idle master, sets `ERR_OP` and changes nothing else (the
word has left the port); every word of an assigned opcode spells a command. -/
def Obligations.ReservedOpcodeOnlySetsErrOp : Prop :=
  (∀ (s : State) (w : CommandWord) (rest : List HostAct), s.busy = false →
    s.host = .call w :: rest ∨ s.host = .post w :: rest →
    w.toNat / 2 ^ 32 = 0 ∨ 9 ≤ w.toNat / 2 ^ 32 →
    step s = .next { s with host := rest, errOp := true }) ∧
  (∀ w : CommandWord, 1 ≤ w.toNat / 2 ^ 32 → w.toNat / 2 ^ 32 ≤ 8 →
    ∃ i, decodeCommand w = .ok i ∧ i.isCommand = true)

/-- A word of the opcode table put where the step takes its next instruction is the instruction the step runs. -/
def Obligations.TableWordIsWhatTheStepRuns : Prop :=
  ∀ (s : State) (nbits w : Nat) (i : Instr), decodeTableWord nbits w = some i →
    step (s.withFetchWord nbits w) = exec i { s with seq := none }

/-! The step and the host port. -/

/-- A step of an idle master whose host calls a word that decodes to `i`, or whose bench holds a wire pattern that does (assumption
log 5), is `exec i`, the act taken off what the host is going to do. -/
def Obligations.StepRunsTheDecodedInstruction : Prop :=
  ∀ (s : State) (i : Instr) (rest : List HostAct), s.busy = false →
    (∀ w, s.host = .call w :: rest → decode (.command w) = .ok i →
      step s = exec i { s with host := rest }) ∧
    (∀ f, s.host = .frame f :: rest → decode (.wire f) = .ok i →
      step s = exec i { s with host := rest })

/-- R34: a command presented while `BUSY = 1` stays on the port and has no effect: the step is the sequencer's, and the meaning
itself leaves the state as it is. -/
def Obligations.CommandHeldOffWhileBusy : Prop :=
  (∀ (s : State) (w : CommandWord) (rest : List HostAct), s.busy = true →
    s.host = .call w :: rest ∨ s.host = .post w :: rest →
    step s = .next s.advance ∧ s.advance.host = s.host) ∧
  (∀ (s : State) (i : Instr), s.busy = true → exec i s = .next s)

/-- R26, R34, R36: a posted command runs one micro-operation a step, one event each, and ends with `BUSY = 0` in exactly the state
the called command has at once. From its acceptance until its last micro-operation `BUSY` is 1: after the acceptance and `m` steps,
with micro-operations left, the command in progress is `i`, `m` of its micro-operations are done, and exactly their events, the first
`m` of the command, are on the trace. That a call is one step is the model's choice (log 9); SET_CAL, which has no micro-operation,
and a refused command end with their acceptance (log 8). -/
def Obligations.PostedCommandCompletesAsCalled : Prop :=
  ∀ (s : State) (w : CommandWord) (i : Instr), s.busy = false → s.host = [.post w] →
    decode (.command w) = .ok i →
    ∃ t, exec i { s with host := [] } = .next t ∧ t.busy = false ∧
      Sys2Proof.core.run (1 + (t.trace.length - s.trace.length)) s = .next t ∧
      ∀ m, m < t.trace.length - s.trace.length →
        ∃ u : State, Sys2Proof.core.run (1 + m) s = .next u ∧ u.busy = true ∧
          (∃ p, u.seq = some p ∧ p.cmd = i ∧ p.done = m) ∧
          u.trace = t.trace.take (s.trace.length + m)

/-- R38, R110: while a command is in progress, one step of the sequencer emits exactly one event, and where the command goes on its
opcode and operand stay and its position advances by one. -/
def Obligations.BusyStepEmitsOneEvent : Prop :=
  ∀ (s : State) (p : Progress), s.inv = true → s.seq = some p →
    (∃ e, s.advance.trace = s.trace ++ [e]) ∧
    (∀ q, s.advance.seq = some q → q.cmd = p.cmd ∧ q.done = p.done + 1)

/-- R158: every instruction terminates, with a next state and with no command in progress where none was. -/
def Obligations.EveryInstructionTerminates : Prop :=
  ∀ (i : Instr) (s : State), ∃ t, exec i s = .next t ∧ t.busy = s.busy

/-- R153, R158: no command does more than STORE's 414 micro-operations. -/
def Obligations.CommandsAreBounded : Prop :=
  ∀ (i : Instr) (s t : State), exec i s = .next t →
    s.trace.length ≤ t.trace.length ∧ t.trace.length ≤ s.trace.length + 414

/-- R206: with no command in progress and nothing from the host, a step changes nothing. -/
def Obligations.IdleStepChangesNothing : Prop :=
  ∀ s : State, s.busy = false → s.host = [] → step s = .next s

/-! The line driver. -/

/-- R111, R113: SET_SCL and SDA_MODE write their one register and emit their one event, a redundant set too; and so do SET_SDA,
READ_SDA and HOLD as R112, R114 and R115 say. -/
def Obligations.MicroOperationsDoOneThing : Prop :=
  ∀ (s : State) (a : Option Bool),
    (∀ v, (MicroOp.setScl v).run a s = (a, { s with sclO := v, trace := s.trace ++ [.scl v] })) ∧
    (∀ v, (MicroOp.setSda v).run a s = (a, { s with sdaO := v, trace := s.trace ++ [.sda v] })) ∧
    ((MicroOp.sdaMode .input).run a s =
      (a, { s with sdaOe := false, trace := s.trace ++ [.dir .input] })) ∧
    ((MicroOp.sdaMode .output).run a s =
      (a, { s with sdaOe := true, trace := s.trace ++ [.dir .output] })) ∧
    (∃ v, MicroOp.readSda.run a s =
      (some v, { s with
        samples := s.samples.tail, drawn := s.drawn + 1, trace := s.trace ++ [.sample v] }) ∧
      v = s.sampleAt 0) ∧
    (∀ d, (MicroOp.hold d).run a s = (a, { s with trace := s.trace ++ [.hold d] }))

/-- R39: the clock line carries `SCL_O`; the data line carries `SDA_O` in output mode and is released in input mode. A 0 is driven;
whether a 1 is driven or released is `DRIVE_STYLE`'s, and nothing is said of it but that no 0 is driven. -/
def Obligations.PinsCarryTheLineRegisters : Prop :=
  ∀ s : State,
    (s.sclO = false → s.clockLine = .driven false) ∧
    (s.sclO = true → s.clockLine = .driven true ∨ s.clockLine = .released) ∧
    (s.sdaOe = true → s.sdaO = false → s.dataLine = .driven false) ∧
    (s.sdaOe = true → s.sdaO = true → s.dataLine = .driven true ∨ s.dataLine = .released) ∧
    (s.sdaOe = false → s.dataLine = .released)

/-! The link protocol. -/

/-- R131: START from an idle, closed master. -/
def Obligations.StartCompletes : Prop :=
  ∀ s : State, s.busy = false → s.link ≠ .started →
    exec .start s = .next { s with
      sclO := false, sdaO := false, link := .started
      trace := s.trace ++
        [.sda true, .scl true, .hold 2000, .sda false, .hold 3000, .scl false] }

/-- R132: STOP from an idle master with a transaction open. -/
def Obligations.StopCompletes : Prop :=
  ∀ s : State, s.busy = false → s.link = .started →
    exec .stop s = .next { s with
      sclO := true, sdaO := true, link := .stopped
      trace := s.trace ++ [.sda false, .scl true, .hold 2000, .sda true, .hold 3000] }

/-- R133: TXBYTE as a host command from an idle master with a transaction open, with the per-bit hold (`NH = 0`) or without: the
acknowledgment is the next sample, whatever its value. -/
def Obligations.TxByteCompletes : Prop :=
  ∀ (s : State) (b : Byte) (nh : Bool), s.busy = false → s.link = .started →
    exec (.txByte b nh) s = .next { s with
      sclO := false, sdaO := b.getLsbD 0, sdaOe := true
      ack := s.sampleAt 0, result := if s.sampleAt 0 then 1 else 0
      samples := s.samples.tail, drawn := s.drawn + 1
      trace := s.trace ++ byteEvents b (!nh) (s.sampleAt 0) }

/-- R134: in the wrong link state START, STOP and TXBYTE set `ERR_SEQ` and change nothing else. -/
def Obligations.WrongLinkStateOnlySetsErrSeq : Prop :=
  ∀ s : State, s.busy = false →
    (s.link = .started → exec .start s = .next { s with errSeq := true }) ∧
    (s.link ≠ .started → exec .stop s = .next { s with errSeq := true }) ∧
    (∀ b nh, s.link ≠ .started → exec (.txByte b nh) s = .next { s with errSeq := true })

/-- R130: the complete transition table of `LINK`; a refused cell is one that sets `ERR_SEQ` and leaves `LINK`, an executing cell one
that leaves `ERR_SEQ` as it was; and while the operation's micro-operations are being done, `LINK` has not changed yet. -/
def Obligations.LinkTransitionTable : Prop :=
  ∀ (s : State) (b : Byte) (nh : Bool), s.busy = false →
    ∃ t u v, exec .start s = .next t ∧ exec .stop s = .next u ∧ exec (.txByte b nh) s = .next v ∧
      (s.link = .idle →
        (t.link = .started ∧ t.errSeq = s.errSeq) ∧ (u.link = .idle ∧ u.errSeq = true) ∧
        (v.link = .idle ∧ v.errSeq = true)) ∧
      (s.link = .started →
        (t.link = .started ∧ t.errSeq = true) ∧ (u.link = .stopped ∧ u.errSeq = s.errSeq) ∧
        (v.link = .started ∧ v.errSeq = s.errSeq)) ∧
      (s.link = .stopped →
        (t.link = .started ∧ t.errSeq = s.errSeq) ∧ (u.link = .stopped ∧ u.errSeq = true) ∧
        (v.link = .stopped ∧ v.errSeq = true)) ∧
      (∀ (i : Instr) (n : Nat) (x : State), i = .start ∨ i = .stop ∨ i = .txByte b nh →
        x = State.advance^[n] (accept i s) → x.busy = true → x.link = s.link)

/-! The device register protocol. -/

/-- R151: PROBE from an idle, closed master: one transaction of the address byte; the status is 0 and `READY` is set where the
sample is 0, else the status is 2 and `READY` stays. -/
def Obligations.ProbeCompletes : Prop :=
  ∀ s : State, s.busy = false → s.link ≠ .started →
    exec .probe s = .next { s.closedRun 1 (probeEvents (s.devAddr ++ 0#1) s.sampleAt) with
      result := if s.sampleAt 0 then 2 else 0
      ready := s.ready || !s.sampleAt 0 }

/-- R152: WRITE_CODE from an idle, closed master: the code masked to 12 bits, the four bytes in order, and `25 × c` in `RESULT`. -/
def Obligations.WriteCodeCompletes : Prop :=
  ∀ (s : State) (code : BitVec 16), s.busy = false → s.link ≠ .started →
    exec (.writeCode code) s = .next
      { s.closedRun 4
          (writeEvents (s.devAddr ++ 0#1) s.regSel (code.extractLsb' 0 4 ++ 0#4)
            (code.extractLsb' 4 8) s.sampleAt) with
        outCode := code.extractLsb' 0 12
        outValid := true
        result := BitVec.ofNat 32 (25 * (code.toNat % 4096)) }

/-- R153: STORE from an idle, closed master: three transactions and the settle delay; only `ACK`, the lines, `LINK` and the trace
change. -/
def Obligations.StoreCompletes : Prop :=
  ∀ s : State, s.busy = false → s.link ≠ .started →
    exec .store s = .next (s.closedRun 12 (storeEvents (s.devAddr ++ 0#1) s.sampleAt))

/-- R157: with a transaction open PROBE, WRITE_CODE, WRITE_CURRENT and STORE set `ERR_SEQ` and change nothing else. -/
def Obligations.DeviceCommandRefusedWithTransactionOpen : Prop :=
  ∀ s : State, s.busy = false → s.link = .started →
    exec .probe s = .next { s with errSeq := true } ∧
    (∀ code, exec (.writeCode code) s = .next { s with errSeq := true }) ∧
    (∀ iIn, exec (.writeCurrent iIn) s = .next { s with errSeq := true }) ∧
    exec .store s = .next { s with errSeq := true }

/-- R65: the two bytes of a code are `{c[3:0], 0000}` and `c[11:4]`, and together they are `c << 4`; the low nibble is always
zero. -/
def Obligations.CodeBytesAreLeftAligned : Prop :=
  ∀ c : Code,
    lowByte c = c.extractLsb' 0 4 ++ 0#4 ∧ highByte c = c.extractLsb' 4 8 ∧
    (highByte c).toNat * 256 + (lowByte c).toNat = c.toNat * 16 ∧
    (lowByte c).toNat % 16 = 0

/-- R173: the result of a WRITE_CODE that executes is the numerator `25 × c` of the masked code, at most 102375: nothing is lost in
the 32 bits of `RESULT`. -/
def Obligations.WriteCodeReturnsTheCurrent : Prop :=
  ∀ (s : State) (code : BitVec 16), s.busy = false → s.link ≠ .started →
    ∃ t, exec (.writeCode code) s = .next t ∧
      t.result.toNat = 25 * t.outCode.toNat ∧ t.outCode.toNat = code.toNat % 4096 ∧
      t.result.toNat ≤ 102375

/-! The conversion layer. -/

/-- R171: the operand is clamped to [0, 1638400]; a current below 0 gives the code of 0 and one above 25 mA the code of 25 mA, so
−5 and 30 mA give those of 0 and 25. -/
def Obligations.ClampedCurrentsShareTheirCode : Prop :=
  ∀ (s : State) (x : Word32),
    clampedIn x = max 0 (min x.toInt 1638400) ∧
    (x.toInt < 0 → s.toCode x = s.toCode 0) ∧
    (1638400 < x.toInt → s.toCode x = s.toCode 0x00190000) ∧
    s.toCode 0xFFFB0000 = s.toCode 0 ∧ s.toCode 0x001E0000 = s.toCode 0x00190000

/-- R172: the code WRITE_CURRENT writes is the exact rational formula on the current the operand denotes, in every state. -/
def Obligations.ToCodeIsTheExactFormula : Prop :=
  ∀ (s : State) (x : Word32), ((s.toCode x).toNat : Int) = s.toCodeExact (currentOf x)

/-- R177: the integer form of `to_code`, and the widths its products need. -/
def Obligations.IntegerFormAndItsWidths : Prop :=
  ∀ (s : State) (w : Word32) (x lo hi : Int), x = max 0 (min w.toInt 1638400) →
    lo = s.calLo.toNat → hi = s.calHi.toNat →
    ((s.toCode w).toNat : Int) =
      (if s.calEn = true ∧ 262144 ≤ x ∧ x ≤ 1310720
        then lo + (x - 262144) * (hi - lo) / 1048576
        else x * 4095 / 1638400) ∧
    0 ≤ x * 4095 ∧ x * 4095 ≤ 6709248000 ∧
    (lo < hi → 262144 ≤ x → x ≤ 1310720 →
      0 ≤ (x - 262144) * (hi - lo) ∧ (x - 262144) * (hi - lo) ≤ 1048576 * 4095)

/-- R172, corner (a): the calibrated branch gives `CAL_LO` at 4 mA and `CAL_HI` at 20 mA and lies between them; the ends of the whole
range give 0 and 4095 whether calibrated or not. -/
def Obligations.ConversionEndpoints : Prop :=
  ∀ s : State,
    (s.calEn = true → s.toCode 0x00040000 = s.calLo ∧ s.toCode 0x00140000 = s.calHi) ∧
    (∀ x : Word32, s.calEn = true → s.calOk = true → 262144 ≤ x.toInt → x.toInt ≤ 1310720 →
      s.calLo.toNat ≤ (s.toCode x).toNat ∧ (s.toCode x).toNat ≤ s.calHi.toNat) ∧
    s.toCode 0 = 0 ∧ s.toCode 0x00190000 = 4095

/-- R172, R176: the code never falls on either branch as the current rises: on the linear branch without calibration, on the linear
branch with calibration and both currents outside [4, 20] mA, and on the calibrated branch of a valid pair. -/
def Obligations.ConversionMonotoneOnEachBranch : Prop :=
  ∀ (s : State) (x y : Word32), x.toInt ≤ y.toInt →
    (s.calEn = false → (s.toCode x).toNat ≤ (s.toCode y).toNat) ∧
    (s.calEn = true → x.toInt < 262144 ∨ 1310720 < x.toInt → y.toInt < 262144 ∨ 1310720 < y.toInt →
      (s.toCode x).toNat ≤ (s.toCode y).toNat) ∧
    (s.calEn = true → s.calOk = true → 262144 ≤ x.toInt → y.toInt ≤ 1310720 →
      (s.toCode x).toNat ≤ (s.toCode y).toNat)

/-- R176, R224: with the default pair set, the code falls from 3277 to 3276 as the current rises by one step past 20 mA. -/
def Obligations.CalibratedCodeFallsPastTwenty : Prop :=
  ∀ s : State, s.calEn = true → s.calLo = 655 → s.calHi = 3277 →
    s.toCode 0x00140000 = 3277 ∧ s.toCode 0x00140001 = 3276

/-- R174: SET_CAL on an idle master, in every `LINK` state: a valid pair is stored and enables calibrated mode, any other pair changes
nothing at all. -/
def Obligations.SetCalCompletes : Prop :=
  ∀ (s : State) (lo hi : BitVec 16), s.busy = false →
    exec (.setCal lo hi) s =
      if lo.toNat < hi.toNat ∧ hi.toNat ≤ 4095 then
        .next { s with
          calLo := lo.extractLsb' 0 12, calHi := hi.extractLsb' 0 12, calEn := true }
      else .next s

/-- R175: WRITE_CURRENT from an idle, closed master: WRITE_CODE of the converted code in full, then the code in `RESULT`. -/
def Obligations.WriteCurrentCompletes : Prop :=
  ∀ (s : State) (iIn : Word32) (c : Code), s.busy = false → s.link ≠ .started →
    c = s.toCode iIn →
    exec (.writeCurrent iIn) s = .next
      { s.closedRun 4
          (writeEvents (s.devAddr ++ 0#1) s.regSel (c.extractLsb' 0 4 ++ 0#4)
            (c.extractLsb' 4 8) s.sampleAt) with
        outCode := c
        outValid := true
        result := c.setWidth 32 }

/-! The wire patterns. -/

/-- R91, R133 and log 5: ADDR_BYTE, sent by itself with a transaction open, is a byte cell of `aaaaaaa0` with the hold; with none open
it is refused. It returns nothing to `RESULT`. -/
def Obligations.AddrByteCompletes : Prop :=
  ∀ (s : State) (a : BitVec 7), s.busy = false →
    (s.link = .started →
      exec (.addrByte a) s = .next { s with
        sclO := false, sdaO := false, sdaOe := true, ack := s.sampleAt 0
        samples := s.samples.tail, drawn := s.drawn + 1
        trace := s.trace ++ byteEvents (a ++ 0#1) true (s.sampleAt 0) }) ∧
    (s.link ≠ .started → exec (.addrByte a) s = .next { s with errSeq := true })

/-- R92 to R94 and log 5: each of the five frames, sent by itself from an idle, closed master, is its one transaction and nothing
else. -/
def Obligations.FramesComplete : Prop :=
  ∀ (s : State) (a : BitVec 7) (r h : Byte) (l : BitVec 4), s.busy = false → s.link ≠ .started →
    exec (.probeFrame a) s = .next (s.closedRun 1 (probeEvents (a ++ 0#1) s.sampleAt)) ∧
    exec (.writeCodeFrame a r l h) s =
      .next (s.closedRun 4 (writeEvents (a ++ 0#1) r (l ++ 0#4) h s.sampleAt)) ∧
    exec .storeFrame1 s = .next (s.closedRun 1 (storeEvents1 s.sampleAt)) ∧
    exec .storeFrame2 s = .next (s.closedRun 2 (storeEvents2 s.sampleAt)) ∧
    exec (.storeFrame3 a) s = .next (s.closedRun 9 (storeEvents3 (a ++ 0#1) s.sampleAt))

/-- Log 5: with a transaction open each of the five frames is refused as the START it begins with is. -/
def Obligations.FramesRefusedWithTransactionOpen : Prop :=
  ∀ (s : State) (a : BitVec 7) (r h : Byte) (l : BitVec 4), s.busy = false → s.link = .started →
    exec (.probeFrame a) s = .next { s with errSeq := true } ∧
    exec (.writeCodeFrame a r l h) s = .next { s with errSeq := true } ∧
    exec .storeFrame1 s = .next { s with errSeq := true } ∧
    exec .storeFrame2 s = .next { s with errSeq := true } ∧
    exec (.storeFrame3 a) s = .next { s with errSeq := true }

/-- R92 to R94: PROBE, WRITE_CODE and STORE put exactly the frames of the opcode table on the bus, with `DEV_ADDR`, `REG_SEL` and the
code's bits in the fields, and add only the registers of their own. -/
def Obligations.CommandsSendTheirFrames : Prop :=
  ∀ s : State, s.busy = false → s.link ≠ .started →
    (∃ t, exec (.probeFrame s.devAddr) s = .next t ∧
      exec .probe s = .next { t with
        result := if t.ack then 2 else 0, ready := t.ready || !t.ack }) ∧
    (∀ code : BitVec 16, ∃ t,
      exec (.writeCodeFrame s.devAddr s.regSel (code.extractLsb' 0 4) (code.extractLsb' 4 8)) s =
        .next t ∧
      exec (.writeCode code) s = .next { t with
        outCode := code.extractLsb' 0 12, outValid := true
        result := BitVec.ofNat 32 (25 * (code.toNat % 4096)) }) ∧
    (∃ t u v, exec .storeFrame1 s = .next t ∧ exec .storeFrame2 t = .next u ∧
      exec (.storeFrame3 s.devAddr) u = .next v ∧
      exec .store s = .next { v with trace := v.trace ++ [.hold 10000000] })

/-- The program P3 of spec/95_test_vectors.md for every code: the four-byte write composed from raw link commands leaves the state
WRITE_CODE leaves, but for the registers the framer owns. -/
def Obligations.WriteCodeIsItsLinkCommands : Prop :=
  ∀ (s : State) (code : BitVec 16), s.busy = false → s.link ≠ .started →
    ∃ s1 s2 s3 s4 s5 t, exec .start s = .next s1 ∧
      exec (.txByte (s.devAddr ++ 0#1) false) s1 = .next s2 ∧
      exec (.txByte s.regSel false) s2 = .next s3 ∧
      exec (.txByte (code.extractLsb' 0 4 ++ 0#4) false) s3 = .next s4 ∧
      exec (.txByte (code.extractLsb' 4 8) false) s4 = .next s5 ∧
      exec .stop s5 = .next t ∧
      exec (.writeCode code) s = .next { t with
        outCode := code.extractLsb' 0 12, outValid := true
        result := BitVec.ofNat 32 (25 * (code.toNat % 4096)) }

/-! What is read off the lines. -/

/-- R39, R90, R112, R114: read off the lines from a quiet state, START is one start condition, STOP one stop condition, and TXBYTE the
eight bits of its byte, bit 7 first, and one acknowledgment slot; nothing else is read, and no violation. -/
def Obligations.LinkOperationsReadOffTheLines : Prop :=
  ∀ s : State, s.busy = false → s.linesOk = true →
    (s.link ≠ .started → ∃ t, exec .start s = .next t ∧
      s.wire.read (t.newEvents s) = (t.wire, [.start])) ∧
    (s.link = .started → ∃ t, exec .stop s = .next t ∧
      s.wire.read (t.newEvents s) = (t.wire, [.stop])) ∧
    (∀ b nh, s.link = .started → ∃ t, exec (.txByte b nh) s = .next t ∧
      s.wire.read (t.newEvents s) = (t.wire, cellMarks b t.ack))

/-- R90, R92 to R94: read off the lines from a quiet, closed state, PROBE, WRITE_CODE and STORE are exactly the frames the spec
prints: no repeated start, no other condition, no violation. -/
def Obligations.FramesReadOffTheLines : Prop :=
  ∀ (s : State) (a r lo hi : Byte) (code : BitVec 16), s.busy = false → s.linesOk = true →
    s.link ≠ .started →
    a = s.devAddr ++ 0#1 → r = s.regSel →
    lo = code.extractLsb' 0 4 ++ 0#4 → hi = code.extractLsb' 4 8 →
    (∃ t, exec .probe s = .next t ∧
      s.wire.read (t.newEvents s) = (t.wire, frameMarks [(a, s.sampleAt 0)])) ∧
    (∃ t, exec (.writeCode code) s = .next t ∧
      s.wire.read (t.newEvents s) = (t.wire, frameMarks
        [(a, s.sampleAt 0), (r, s.sampleAt 1), (lo, s.sampleAt 2), (hi, s.sampleAt 3)])) ∧
    (∃ t, exec .store s = .next t ∧
      s.wire.read (t.newEvents s) = (t.wire,
        frameMarks [(0x02, s.sampleAt 0)] ++
        frameMarks [(0x10, s.sampleAt 1), (0x03, s.sampleAt 2)] ++
        frameMarks
          [(a, s.sampleAt 3), (0x00, s.sampleAt 4), (0x00, s.sampleAt 5), (0x00, s.sampleAt 6),
           (0x00, s.sampleAt 7), (0x00, s.sampleAt 8), (0x00, s.sampleAt 9),
           (0x00, s.sampleAt 10), (0x00, s.sampleAt 11)]))

/-- R40 (f), R95, R112, R114: whatever instruction a quiet master is given, the data line never moves while the clock is high but for
start and stop conditions, it is sampled and its direction switched only where the spec says, a start condition is answered
by a stop condition unless a transaction is left open, the lines end at the levels of the registers, and the master is quiet
again. -/
def Obligations.NoInstructionViolatesTheLines : Prop :=
  ∀ (i : Instr) (s t : State), s.busy = false → s.linesOk = true → exec i s = .next t →
    (s.wire.read (t.newEvents s)).1 = t.wire ∧ t.busy = false ∧ t.linesOk = true ∧
    WireMark.violation ∉ (s.wire.read (t.newEvents s)).2 ∧
    (s.wire.read (t.newEvents s)).2.count .start + (if s.link = .started then 1 else 0) =
      (s.wire.read (t.newEvents s)).2.count .stop + (if t.link = .started then 1 else 0)

/-- R228: the number of events, of clock pulses and the sum of holds of each operation, from a quiet state it executes in; STOP's
clock rises once; and the time it takes is its holds with one `T_STEP` per event on top, which gives every interval of R219 its
`T_STEP` (log 11). -/
def Obligations.EventsPulsesAndHolds : Prop :=
  ∀ s : State, s.busy = false → s.linesOk = true →
    (∀ i n pulses holds,
      (s.link ≠ .started ∧ i = .start ∧ n = 6 ∧ pulses = 0 ∧ holds = 5000) ∨
      (s.link = .started ∧ i = .stop ∧ n = 5 ∧ pulses = 0 ∧ holds = 5000) ∨
      (s.link = .started ∧ (∃ b, i = .txByte b false) ∧ n = 37 ∧ pulses = 9 ∧ holds = 40000) ∨
      (s.link = .started ∧ (∃ b, i = .txByte b true) ∧ n = 29 ∧ pulses = 9 ∧ holds = 0) ∨
      (s.link ≠ .started ∧ i = .probe ∧ n = 48 ∧ pulses = 9 ∧ holds = 50000) ∨
      (s.link ≠ .started ∧ (∃ c, i = .writeCode c) ∧ n = 159 ∧ pulses = 36 ∧ holds = 170000) ∨
      (s.link ≠ .started ∧ (∃ x, i = .writeCurrent x) ∧ n = 159 ∧ pulses = 36 ∧
        holds = 170000) ∨
      (s.link ≠ .started ∧ i = .store ∧ n = 414 ∧ pulses = 108 ∧ holds = 10190000) ∨
      ((∃ lo hi, i = .setCal lo hi) ∧ n = 0 ∧ pulses = 0 ∧ holds = 0) →
      ∃ t, exec i s = .next t ∧ (t.newEvents s).length = n ∧
        pulseCount (s.wire.read (t.newEvents s)).2 = pulses ∧ holdSum (t.newEvents s) = holds ∧
        (i = .stop → clockRises s.sclO (t.newEvents s) = 1) ∧
        elapsed (t.newEvents s) = holds + Config.tStep * n)

/-- R136: the counts a trace checker can rely on. START has no clock pulse; STOP has none either, one rising clock edge and no falling
one; TXBYTE has nine pulses, eight `SDA`, one `SAMPLE` and two `DIR` events, eight or no `HOLD(5000)`, and the clock falls
nine times. -/
def Obligations.TraceCheckerCounts : Prop :=
  ∀ s : State, s.busy = false → s.linesOk = true →
    (s.link ≠ .started → ∃ t, exec .start s = .next t ∧
      pulseCount (s.wire.read (t.newEvents s)).2 = 0) ∧
    (s.link = .started → ∃ t, exec .stop s = .next t ∧
      pulseCount (s.wire.read (t.newEvents s)).2 = 0 ∧
      clockRises s.sclO (t.newEvents s) = 1 ∧ clockFalls s.sclO (t.newEvents s) = 0) ∧
    (∀ b nh, s.link = .started → ∃ t, exec (.txByte b nh) s = .next t ∧
      pulseCount (s.wire.read (t.newEvents s)).2 = 9 ∧ sdaCount (t.newEvents s) = 8 ∧
      sampleCount (t.newEvents s) = 1 ∧ dirCount (t.newEvents s) = 2 ∧
      holdCount 5000 (t.newEvents s) = (if nh then 0 else 8) ∧
      clockFalls s.sclO (t.newEvents s) = 9)

/-! The status port. -/

/-- R35: a read of words 0 to 4, at any time, `BUSY = 1` too, returns the word of the register map and has no side effect on the
master; `OUT_CODE` is shown where `OUT_VALID = 1`, and nothing is said of the field where it is 0. -/
def Obligations.StatusReadReturnsTheWord : Prop :=
  ∀ (s : State) (n : Nat) (rest : List HostAct), s.host = .read n :: rest → n ≤ 4 →
    ∃ v k, step s = .next { s with
        host := rest, reads := s.reads ++ [⟨n, v⟩], outReads := k } ∧
      (n = 0 →
        v.getLsbD 0 = s.busy ∧ v.getLsbD 1 = s.ready ∧ v.getLsbD 2 = s.calEn ∧
        v.getLsbD 3 = s.outValid ∧ v.getLsbD 4 = s.ack ∧
        v.extractLsb' 5 2 = (match s.link with | .idle => 0 | .started => 1 | .stopped => 2) ∧
        v.getLsbD 7 = s.errSeq ∧ v.getLsbD 8 = s.errOp ∧ v.getLsbD 9 = s.sclO ∧
        v.getLsbD 10 = s.sdaO ∧ v.getLsbD 11 = s.sdaOe ∧ v.extractLsb' 12 20 = 0) ∧
      (n = 1 → v = s.result) ∧
      (n = 2 → v.extractLsb' 0 12 = s.calLo ∧ v.extractLsb' 16 12 = s.calHi ∧
        v.extractLsb' 12 4 = 0 ∧ v.extractLsb' 28 4 = 0) ∧
      (n = 3 → (s.outValid = true → v.extractLsb' 0 12 = s.outCode) ∧ v.extractLsb' 12 20 = 0) ∧
      (n = 4 → v.extractLsb' 0 7 = s.devAddr ∧ v.extractLsb' 8 8 = s.regSel ∧
        v.getLsbD 7 = false ∧ v.extractLsb' 16 16 = 0)

/-- R229: words numbered 5 and above do not exist, and a read of one stops the model by name. -/
def Obligations.ReadOfMissingWordStops : Prop :=
  ∀ (s : State) (n : Nat) (rest : List HostAct), s.host = .read n :: rest → 5 ≤ n →
    step s = .fault (.noSuchStatusWord n)

/-! Reset. -/

/-- R43, R210, R211: the reset event, idle or in the middle of a command: every register takes its value of R43, the trace starts empty,
and a command in progress is over. That what the environment and the host have before them stays is the model's choice (log 17),
and the count of samples drawn is the model's own (log 13). -/
def Obligations.ResetRestoresEveryRegister : Prop :=
  ∀ (s : State) (d : BitVec 7) (r : Byte) (rest : List HostAct), s.host = .reset d r :: rest →
    ∃ t, step s = .next t ∧
      t.calLo = 655 ∧ t.calHi = 3277 ∧ t.calEn = false ∧ t.outValid = false ∧ t.ready = false ∧
      t.link = .idle ∧ t.sclO = true ∧ t.sdaO = true ∧ t.sdaOe = true ∧ t.ack = true ∧
      t.result = 0 ∧ t.errSeq = false ∧ t.errOp = false ∧ t.busy = false ∧ t.seq = none ∧
      t.devAddr = d ∧ t.regSel = r ∧ t.trace = [] ∧
      t.samples = s.samples ∧ t.drawn = s.drawn ∧ t.host = rest ∧ t.reads = s.reads

/-- R43: the state right after reset. -/
def Obligations.ResetStateValues : Prop :=
  State.reset.calLo = 655 ∧ State.reset.calHi = 3277 ∧ State.reset.calEn = false ∧
  State.reset.outValid = false ∧ State.reset.ready = false ∧ State.reset.link = .idle ∧
  State.reset.sclO = true ∧ State.reset.sdaO = true ∧ State.reset.sdaOe = true ∧
  State.reset.ack = true ∧ State.reset.result = 0 ∧ State.reset.errSeq = false ∧
  State.reset.errOp = false ∧ State.reset.busy = false ∧ State.reset.seq = none ∧
  State.reset.devAddr = Config.devAddr ∧ State.reset.regSel = Config.regSel ∧
  State.reset.trace = []

/-! Invariants and rules of the whole machine. -/

/-- The invariant holds right after reset. -/
def Obligations.ResetStateMeetsTheInvariant : Prop := State.reset.inv = true

/-- Every step, from every state that meets the invariant, leaves a state that meets it: R21 and R40 (a) to (d), and a command in
progress stands before a micro-operation (R26). -/
def Obligations.StepKeepsTheInvariant : Prop :=
  ∀ s t : State, s.inv = true → step s = .next t → t.inv = true

/-- R40 (a) to (e), from the invariant, whenever `BUSY = 0`. -/
def Obligations.QuietStateFromTheInvariant : Prop :=
  ∀ s : State, s.inv = true → s.busy = false →
    s.sdaOe = true ∧ (s.link = .started → s.sclO = false) ∧
    (s.link = .idle ∨ s.link = .stopped → s.sclO = true ∧ s.sdaO = true) ∧
    s.calLo.toNat < s.calHi.toNat ∧ s.calHi.toNat ≤ 4095 ∧
    (s.outValid = true → s.outCode.toNat ≤ 4095)

/-- R21, R22: no instruction but SET_CAL writes the calibration pair or its enable. -/
def Obligations.CalibrationWrittenOnlyBySetCal : Prop :=
  ∀ (i : Instr) (s t : State), exec i s = .next t → (∀ lo hi, i ≠ .setCal lo hi) →
    t.calLo = s.calLo ∧ t.calHi = s.calHi ∧ t.calEn = s.calEn

/-- R22: "Only reset returns it to 0." -/
def Obligations.CalibratedModeEndsOnlyAtReset : Prop :=
  ∀ s t : State, step s = .next t → s.calEn = true → (∀ d r rest, s.host ≠ .reset d r :: rest) →
    t.calEn = true

/-- R23: no instruction but WRITE_CODE and WRITE_CURRENT writes `OUT_CODE` or `OUT_VALID`. -/
def Obligations.OutputWrittenOnlyByWrites : Prop :=
  ∀ (i : Instr) (s t : State), exec i s = .next t → (∀ code, i ≠ .writeCode code) →
    (∀ x, i ≠ .writeCurrent x) → t.outCode = s.outCode ∧ t.outValid = s.outValid

/-- R28: no instruction but PROBE writes `READY`, and PROBE never clears it. -/
def Obligations.ReadyWrittenOnlyByProbe : Prop :=
  ∀ (i : Instr) (s t : State), exec i s = .next t →
    (i ≠ .probe → t.ready = s.ready) ∧ (s.ready = true → t.ready = true)

/-- R32: SET_CAL, STORE, START and STOP leave `RESULT` unchanged, and so does every refused command: one given in a link state it is
refused in, whether it finds `ERR_SEQ` set or not (R199), and with it every one that sets it. -/
def Obligations.ResultKeptByVoidAndRefusedCommands : Prop :=
  ∀ (i : Instr) (s t : State), exec i s = .next t →
    (i = .store ∨ i = .start ∨ i = .stop ∨ (∃ lo hi, i = .setCal lo hi) ∨
      (s.link = .started ∧
        (i = .probe ∨ (∃ code, i = .writeCode code) ∨ ∃ x, i = .writeCurrent x)) ∨
      (s.link ≠ .started ∧ ∃ b nh, i = .txByte b nh) ∨
      (s.errSeq = false ∧ t.errSeq = true)) →
    t.result = s.result

/-- R33, R199: neither error flag is ever cleared except by reset. -/
def Obligations.ErrorFlagsStickUntilReset : Prop :=
  ∀ s t : State, step s = .next t → (∀ d r rest, s.host ≠ .reset d r :: rest) →
    (s.errSeq = true → t.errSeq = true) ∧ (s.errOp = true → t.errOp = true)

/-- R24: the configuration is constant from reset to reset. -/
def Obligations.ConfigurationConstantUntilReset : Prop :=
  ∀ s t : State, step s = .next t → (∀ d r rest, s.host ≠ .reset d r :: rest) →
    t.devAddr = s.devAddr ∧ t.regSel = s.regSel

/-- R38: until reset a step only appends to the trace, and it draws exactly one sample for each `SAMPLE` event it appends (R30,
R114). -/
def Obligations.StepsOnlyAppendToTheTrace : Prop :=
  ∀ s t : State, step s = .next t → (∀ d r rest, s.host ≠ .reset d r :: rest) →
    ∃ es, t.trace = s.trace ++ es ∧ t.drawn = s.drawn + sampleCount es

/-- R72: what a command emits and leaves does not depend on the trace before it, so the trace of a sequence of commands is the
concatenation of their traces. -/
def Obligations.TracesConcatenate : Prop :=
  ∀ (i : Instr) (s t : State) (tr : List Event), exec i s = .next t →
    t.trace = s.trace ++ t.newEvents s ∧
    exec i { s with trace := tr } = .next { t with trace := tr ++ t.newEvents s }

/-- R76, R135, R154: acknowledgments change the course of no command. Two runs of one instruction that differ only in what the
environment answers emit the same events but for the levels sampled, and differ only in `ACK`, and in the result of PROBE
and TXBYTE and the `READY` of PROBE. -/
def Obligations.AcknowledgmentsChangeNoCourse : Prop :=
  ∀ (i : Instr) (s t u : State) (answers : List Bool) (k : Nat), exec i s = .next t →
    exec i { s with samples := answers, drawn := k } = .next u →
    (u.newEvents s).map Event.unsampled = (t.newEvents s).map Event.unsampled ∧
    u = { t with
      trace := u.trace, ack := u.ack, samples := u.samples, drawn := u.drawn
      result := u.result, ready := u.ready } ∧
    ((∀ b nh, i ≠ .txByte b nh) → i ≠ .probe → u.result = t.result) ∧
    (i ≠ .probe → u.ready = t.ready)
end

