-- ==== Sys2Proof/Laws/Encoding.lean ====
section
/-! SUPPORT. The fields of a composed command word and the bytes of the wire patterns, said once. -/

namespace Sys2Proof

/-- A code is below 4096, as a numeral that arithmetic tactics read. -/
theorem Code.toNat_lt (c : Code) : c.toNat < 4096 := c.isLt

/-- The bits of a command word: those of `arg` below bit 32, those of `op` above. -/
theorem commandWord_getLsbD (o : BitVec 4) (x : Word32) (i : Nat) :
    (commandWord o x).getLsbD i = if i < 32 then x.getLsbD i else o.getLsbD (i - 32) := by
  have h : (commandWord o x).getLsbD i = (decide (i < 36) && (o ++ x).getLsbD i) :=
    BitVec.getLsbD_setWidth ..
  rw [h, BitVec.getLsbD_append]
  by_cases h1 : i < 32
  · simp [h1]
    omega
  · by_cases h2 : i < 36
    · simp [h1, h2]
    · simp [h1, h2, BitVec.getLsbD_of_ge o (i - 32) (by omega)]

/-- The opcode field of a composed word. -/
theorem opField_commandWord (o : BitVec 4) (x : Word32) : opField (commandWord o x) = o := by
  apply BitVec.eq_of_getLsbD_eq
  intro i h
  simp [opField, commandWord_getLsbD, h]

/-- The operand field of a composed word. -/
theorem argField_commandWord (o : BitVec 4) (x : Word32) : argField (commandWord o x) = x := by
  apply BitVec.eq_of_getLsbD_eq
  intro i h
  simp [argField, commandWord_getLsbD, h]

/-- The low half of a composed word's operand. -/
theorem argLow_commandWord (o : BitVec 4) (x : Word32) :
    argLow (commandWord o x) = x.extractLsb' 0 16 := by
  apply BitVec.eq_of_getLsbD_eq
  intro i h
  have : i < 32 := by omega
  simp [argLow, commandWord_getLsbD, h, this]

/-- The high half of a composed word's operand. -/
theorem argHigh_commandWord (o : BitVec 4) (x : Word32) :
    argHigh (commandWord o x) = x.extractLsb' 16 16 := by
  apply BitVec.eq_of_getLsbD_eq
  intro i h
  have : 16 + i < 32 := by omega
  simp [argHigh, commandWord_getLsbD, h, this]

/-- The byte of a composed word's operand. -/
theorem argByte_commandWord (o : BitVec 4) (x : Word32) :
    argByte (commandWord o x) = x.extractLsb' 0 8 := by
  apply BitVec.eq_of_getLsbD_eq
  intro i h
  have : i < 32 := by omega
  simp [argByte, commandWord_getLsbD, h, this]

/-- The no-hold bit of a composed word's operand. -/
theorem argNoHold_commandWord (o : BitVec 4) (x : Word32) :
    argNoHold (commandWord o x) = x.getLsbD 8 := by
  simp only [argNoHold, commandWord_getLsbD]
  rfl

/-- The low half of a pair of halves. -/
theorem pair_low (a b : BitVec 16) : ((a ++ b).setWidth 32).extractLsb' 0 16 = b := by
  apply BitVec.eq_of_getLsbD_eq
  intro i h
  simp only [BitVec.getLsbD_extractLsb', BitVec.getLsbD_setWidth, BitVec.getLsbD_append]
  simp [h]
  omega

/-- The high half of a pair of halves. -/
theorem pair_high (a b : BitVec 16) : ((a ++ b).setWidth 32).extractLsb' 16 16 = a := by
  apply BitVec.eq_of_getLsbD_eq
  intro i h
  simp only [BitVec.getLsbD_extractLsb', BitVec.getLsbD_setWidth, BitVec.getLsbD_append]
  simp [h]
  omega

/-- The address field of an address byte. -/
theorem addrOf_addrByteOf (a : BitVec 7) : addrOf (addrByteOf a) = a := by
  revert a
  decide

/-- The direction bit of an address byte is 0, the write direction. -/
theorem addrByteOf_zero (a : BitVec 7) : (addrByteOf a).getLsbD 0 = false := by
  revert a
  decide

/-- No address but 0x01 has an address byte equal to the store header (R63). -/
theorem addrByteOf_ne_storeHead (a : BitVec 7) : a ≠ 1 → addrByteOf a ≠ Config.storeHead := by
  revert a
  decide

end Sys2Proof
end

