-- ==== Sys2Proof/Laws/State.lean ====
section
/-! SUPPORT. One lemma for each field of the state under each single write, true by definition: what the write sets and
what it leaves alone. -/

namespace Sys2Proof.Machine

variable (s : State)

@[simp] theorem State.emit_calLo (e : Event) : (s.emit e).calLo = s.calLo := rfl
@[simp] theorem State.emit_calHi (e : Event) : (s.emit e).calHi = s.calHi := rfl
@[simp] theorem State.emit_calEn (e : Event) : (s.emit e).calEn = s.calEn := rfl
@[simp] theorem State.emit_outCode (e : Event) : (s.emit e).outCode = s.outCode := rfl
@[simp] theorem State.emit_outValid (e : Event) : (s.emit e).outValid = s.outValid := rfl
@[simp] theorem State.emit_ready (e : Event) : (s.emit e).ready = s.ready := rfl
@[simp] theorem State.emit_ack (e : Event) : (s.emit e).ack = s.ack := rfl
@[simp] theorem State.emit_errSeq (e : Event) : (s.emit e).errSeq = s.errSeq := rfl
@[simp] theorem State.emit_errOp (e : Event) : (s.emit e).errOp = s.errOp := rfl
@[simp] theorem State.emit_link (e : Event) : (s.emit e).link = s.link := rfl
@[simp] theorem State.emit_sclO (e : Event) : (s.emit e).sclO = s.sclO := rfl
@[simp] theorem State.emit_sdaO (e : Event) : (s.emit e).sdaO = s.sdaO := rfl
@[simp] theorem State.emit_sdaOe (e : Event) : (s.emit e).sdaOe = s.sdaOe := rfl
@[simp] theorem State.emit_result (e : Event) : (s.emit e).result = s.result := rfl
@[simp] theorem State.emit_seq (e : Event) : (s.emit e).seq = s.seq := rfl
@[simp] theorem State.emit_devAddr (e : Event) : (s.emit e).devAddr = s.devAddr := rfl
@[simp] theorem State.emit_regSel (e : Event) : (s.emit e).regSel = s.regSel := rfl
@[simp] theorem State.emit_trace (e : Event) : (s.emit e).trace = s.trace ++ [e] := rfl
@[simp] theorem State.emit_samples (e : Event) : (s.emit e).samples = s.samples := rfl
@[simp] theorem State.emit_drawn (e : Event) : (s.emit e).drawn = s.drawn := rfl
@[simp] theorem State.emit_host (e : Event) : (s.emit e).host = s.host := rfl
@[simp] theorem State.emit_reads (e : Event) : (s.emit e).reads = s.reads := rfl
@[simp] theorem State.emit_outReads (e : Event) : (s.emit e).outReads = s.outReads := rfl

@[simp] theorem State.putScl_calLo (v : Bool) : (s.putScl v).calLo = s.calLo := rfl
@[simp] theorem State.putScl_calHi (v : Bool) : (s.putScl v).calHi = s.calHi := rfl
@[simp] theorem State.putScl_calEn (v : Bool) : (s.putScl v).calEn = s.calEn := rfl
@[simp] theorem State.putScl_outCode (v : Bool) : (s.putScl v).outCode = s.outCode := rfl
@[simp] theorem State.putScl_outValid (v : Bool) : (s.putScl v).outValid = s.outValid := rfl
@[simp] theorem State.putScl_ready (v : Bool) : (s.putScl v).ready = s.ready := rfl
@[simp] theorem State.putScl_ack (v : Bool) : (s.putScl v).ack = s.ack := rfl
@[simp] theorem State.putScl_errSeq (v : Bool) : (s.putScl v).errSeq = s.errSeq := rfl
@[simp] theorem State.putScl_errOp (v : Bool) : (s.putScl v).errOp = s.errOp := rfl
@[simp] theorem State.putScl_link (v : Bool) : (s.putScl v).link = s.link := rfl
@[simp] theorem State.putScl_sclO (v : Bool) : (s.putScl v).sclO = v := rfl
@[simp] theorem State.putScl_sdaO (v : Bool) : (s.putScl v).sdaO = s.sdaO := rfl
@[simp] theorem State.putScl_sdaOe (v : Bool) : (s.putScl v).sdaOe = s.sdaOe := rfl
@[simp] theorem State.putScl_result (v : Bool) : (s.putScl v).result = s.result := rfl
@[simp] theorem State.putScl_seq (v : Bool) : (s.putScl v).seq = s.seq := rfl
@[simp] theorem State.putScl_devAddr (v : Bool) : (s.putScl v).devAddr = s.devAddr := rfl
@[simp] theorem State.putScl_regSel (v : Bool) : (s.putScl v).regSel = s.regSel := rfl
@[simp] theorem State.putScl_trace (v : Bool) : (s.putScl v).trace = s.trace := rfl
@[simp] theorem State.putScl_samples (v : Bool) : (s.putScl v).samples = s.samples := rfl
@[simp] theorem State.putScl_drawn (v : Bool) : (s.putScl v).drawn = s.drawn := rfl
@[simp] theorem State.putScl_host (v : Bool) : (s.putScl v).host = s.host := rfl
@[simp] theorem State.putScl_reads (v : Bool) : (s.putScl v).reads = s.reads := rfl
@[simp] theorem State.putScl_outReads (v : Bool) : (s.putScl v).outReads = s.outReads := rfl

@[simp] theorem State.putSda_calLo (v : Bool) : (s.putSda v).calLo = s.calLo := rfl
@[simp] theorem State.putSda_calHi (v : Bool) : (s.putSda v).calHi = s.calHi := rfl
@[simp] theorem State.putSda_calEn (v : Bool) : (s.putSda v).calEn = s.calEn := rfl
@[simp] theorem State.putSda_outCode (v : Bool) : (s.putSda v).outCode = s.outCode := rfl
@[simp] theorem State.putSda_outValid (v : Bool) : (s.putSda v).outValid = s.outValid := rfl
@[simp] theorem State.putSda_ready (v : Bool) : (s.putSda v).ready = s.ready := rfl
@[simp] theorem State.putSda_ack (v : Bool) : (s.putSda v).ack = s.ack := rfl
@[simp] theorem State.putSda_errSeq (v : Bool) : (s.putSda v).errSeq = s.errSeq := rfl
@[simp] theorem State.putSda_errOp (v : Bool) : (s.putSda v).errOp = s.errOp := rfl
@[simp] theorem State.putSda_link (v : Bool) : (s.putSda v).link = s.link := rfl
@[simp] theorem State.putSda_sclO (v : Bool) : (s.putSda v).sclO = s.sclO := rfl
@[simp] theorem State.putSda_sdaO (v : Bool) : (s.putSda v).sdaO = v := rfl
@[simp] theorem State.putSda_sdaOe (v : Bool) : (s.putSda v).sdaOe = s.sdaOe := rfl
@[simp] theorem State.putSda_result (v : Bool) : (s.putSda v).result = s.result := rfl
@[simp] theorem State.putSda_seq (v : Bool) : (s.putSda v).seq = s.seq := rfl
@[simp] theorem State.putSda_devAddr (v : Bool) : (s.putSda v).devAddr = s.devAddr := rfl
@[simp] theorem State.putSda_regSel (v : Bool) : (s.putSda v).regSel = s.regSel := rfl
@[simp] theorem State.putSda_trace (v : Bool) : (s.putSda v).trace = s.trace := rfl
@[simp] theorem State.putSda_samples (v : Bool) : (s.putSda v).samples = s.samples := rfl
@[simp] theorem State.putSda_drawn (v : Bool) : (s.putSda v).drawn = s.drawn := rfl
@[simp] theorem State.putSda_host (v : Bool) : (s.putSda v).host = s.host := rfl
@[simp] theorem State.putSda_reads (v : Bool) : (s.putSda v).reads = s.reads := rfl
@[simp] theorem State.putSda_outReads (v : Bool) : (s.putSda v).outReads = s.outReads := rfl

@[simp] theorem State.putSdaOe_calLo (v : Bool) : (s.putSdaOe v).calLo = s.calLo := rfl
@[simp] theorem State.putSdaOe_calHi (v : Bool) : (s.putSdaOe v).calHi = s.calHi := rfl
@[simp] theorem State.putSdaOe_calEn (v : Bool) : (s.putSdaOe v).calEn = s.calEn := rfl
@[simp] theorem State.putSdaOe_outCode (v : Bool) : (s.putSdaOe v).outCode = s.outCode := rfl
@[simp] theorem State.putSdaOe_outValid (v : Bool) : (s.putSdaOe v).outValid = s.outValid := rfl
@[simp] theorem State.putSdaOe_ready (v : Bool) : (s.putSdaOe v).ready = s.ready := rfl
@[simp] theorem State.putSdaOe_ack (v : Bool) : (s.putSdaOe v).ack = s.ack := rfl
@[simp] theorem State.putSdaOe_errSeq (v : Bool) : (s.putSdaOe v).errSeq = s.errSeq := rfl
@[simp] theorem State.putSdaOe_errOp (v : Bool) : (s.putSdaOe v).errOp = s.errOp := rfl
@[simp] theorem State.putSdaOe_link (v : Bool) : (s.putSdaOe v).link = s.link := rfl
@[simp] theorem State.putSdaOe_sclO (v : Bool) : (s.putSdaOe v).sclO = s.sclO := rfl
@[simp] theorem State.putSdaOe_sdaO (v : Bool) : (s.putSdaOe v).sdaO = s.sdaO := rfl
@[simp] theorem State.putSdaOe_sdaOe (v : Bool) : (s.putSdaOe v).sdaOe = v := rfl
@[simp] theorem State.putSdaOe_result (v : Bool) : (s.putSdaOe v).result = s.result := rfl
@[simp] theorem State.putSdaOe_seq (v : Bool) : (s.putSdaOe v).seq = s.seq := rfl
@[simp] theorem State.putSdaOe_devAddr (v : Bool) : (s.putSdaOe v).devAddr = s.devAddr := rfl
@[simp] theorem State.putSdaOe_regSel (v : Bool) : (s.putSdaOe v).regSel = s.regSel := rfl
@[simp] theorem State.putSdaOe_trace (v : Bool) : (s.putSdaOe v).trace = s.trace := rfl
@[simp] theorem State.putSdaOe_samples (v : Bool) : (s.putSdaOe v).samples = s.samples := rfl
@[simp] theorem State.putSdaOe_drawn (v : Bool) : (s.putSdaOe v).drawn = s.drawn := rfl
@[simp] theorem State.putSdaOe_host (v : Bool) : (s.putSdaOe v).host = s.host := rfl
@[simp] theorem State.putSdaOe_reads (v : Bool) : (s.putSdaOe v).reads = s.reads := rfl
@[simp] theorem State.putSdaOe_outReads (v : Bool) : (s.putSdaOe v).outReads = s.outReads := rfl

@[simp] theorem State.putLink_calLo (l : LinkState) : (s.putLink l).calLo = s.calLo := rfl
@[simp] theorem State.putLink_calHi (l : LinkState) : (s.putLink l).calHi = s.calHi := rfl
@[simp] theorem State.putLink_calEn (l : LinkState) : (s.putLink l).calEn = s.calEn := rfl
@[simp] theorem State.putLink_outCode (l : LinkState) : (s.putLink l).outCode = s.outCode := rfl
@[simp] theorem State.putLink_outValid (l : LinkState) : (s.putLink l).outValid = s.outValid := rfl
@[simp] theorem State.putLink_ready (l : LinkState) : (s.putLink l).ready = s.ready := rfl
@[simp] theorem State.putLink_ack (l : LinkState) : (s.putLink l).ack = s.ack := rfl
@[simp] theorem State.putLink_errSeq (l : LinkState) : (s.putLink l).errSeq = s.errSeq := rfl
@[simp] theorem State.putLink_errOp (l : LinkState) : (s.putLink l).errOp = s.errOp := rfl
@[simp] theorem State.putLink_link (l : LinkState) : (s.putLink l).link = l := rfl
@[simp] theorem State.putLink_sclO (l : LinkState) : (s.putLink l).sclO = s.sclO := rfl
@[simp] theorem State.putLink_sdaO (l : LinkState) : (s.putLink l).sdaO = s.sdaO := rfl
@[simp] theorem State.putLink_sdaOe (l : LinkState) : (s.putLink l).sdaOe = s.sdaOe := rfl
@[simp] theorem State.putLink_result (l : LinkState) : (s.putLink l).result = s.result := rfl
@[simp] theorem State.putLink_seq (l : LinkState) : (s.putLink l).seq = s.seq := rfl
@[simp] theorem State.putLink_devAddr (l : LinkState) : (s.putLink l).devAddr = s.devAddr := rfl
@[simp] theorem State.putLink_regSel (l : LinkState) : (s.putLink l).regSel = s.regSel := rfl
@[simp] theorem State.putLink_trace (l : LinkState) : (s.putLink l).trace = s.trace := rfl
@[simp] theorem State.putLink_samples (l : LinkState) : (s.putLink l).samples = s.samples := rfl
@[simp] theorem State.putLink_drawn (l : LinkState) : (s.putLink l).drawn = s.drawn := rfl
@[simp] theorem State.putLink_host (l : LinkState) : (s.putLink l).host = s.host := rfl
@[simp] theorem State.putLink_reads (l : LinkState) : (s.putLink l).reads = s.reads := rfl
@[simp] theorem State.putLink_outReads (l : LinkState) : (s.putLink l).outReads = s.outReads := rfl

@[simp] theorem State.putAck_calLo (v : Bool) : (s.putAck v).calLo = s.calLo := rfl
@[simp] theorem State.putAck_calHi (v : Bool) : (s.putAck v).calHi = s.calHi := rfl
@[simp] theorem State.putAck_calEn (v : Bool) : (s.putAck v).calEn = s.calEn := rfl
@[simp] theorem State.putAck_outCode (v : Bool) : (s.putAck v).outCode = s.outCode := rfl
@[simp] theorem State.putAck_outValid (v : Bool) : (s.putAck v).outValid = s.outValid := rfl
@[simp] theorem State.putAck_ready (v : Bool) : (s.putAck v).ready = s.ready := rfl
@[simp] theorem State.putAck_ack (v : Bool) : (s.putAck v).ack = v := rfl
@[simp] theorem State.putAck_errSeq (v : Bool) : (s.putAck v).errSeq = s.errSeq := rfl
@[simp] theorem State.putAck_errOp (v : Bool) : (s.putAck v).errOp = s.errOp := rfl
@[simp] theorem State.putAck_link (v : Bool) : (s.putAck v).link = s.link := rfl
@[simp] theorem State.putAck_sclO (v : Bool) : (s.putAck v).sclO = s.sclO := rfl
@[simp] theorem State.putAck_sdaO (v : Bool) : (s.putAck v).sdaO = s.sdaO := rfl
@[simp] theorem State.putAck_sdaOe (v : Bool) : (s.putAck v).sdaOe = s.sdaOe := rfl
@[simp] theorem State.putAck_result (v : Bool) : (s.putAck v).result = s.result := rfl
@[simp] theorem State.putAck_seq (v : Bool) : (s.putAck v).seq = s.seq := rfl
@[simp] theorem State.putAck_devAddr (v : Bool) : (s.putAck v).devAddr = s.devAddr := rfl
@[simp] theorem State.putAck_regSel (v : Bool) : (s.putAck v).regSel = s.regSel := rfl
@[simp] theorem State.putAck_trace (v : Bool) : (s.putAck v).trace = s.trace := rfl
@[simp] theorem State.putAck_samples (v : Bool) : (s.putAck v).samples = s.samples := rfl
@[simp] theorem State.putAck_drawn (v : Bool) : (s.putAck v).drawn = s.drawn := rfl
@[simp] theorem State.putAck_host (v : Bool) : (s.putAck v).host = s.host := rfl
@[simp] theorem State.putAck_reads (v : Bool) : (s.putAck v).reads = s.reads := rfl
@[simp] theorem State.putAck_outReads (v : Bool) : (s.putAck v).outReads = s.outReads := rfl

@[simp] theorem State.putReady_calLo (v : Bool) : (s.putReady v).calLo = s.calLo := rfl
@[simp] theorem State.putReady_calHi (v : Bool) : (s.putReady v).calHi = s.calHi := rfl
@[simp] theorem State.putReady_calEn (v : Bool) : (s.putReady v).calEn = s.calEn := rfl
@[simp] theorem State.putReady_outCode (v : Bool) : (s.putReady v).outCode = s.outCode := rfl
@[simp] theorem State.putReady_outValid (v : Bool) : (s.putReady v).outValid = s.outValid := rfl
@[simp] theorem State.putReady_ready (v : Bool) : (s.putReady v).ready = v := rfl
@[simp] theorem State.putReady_ack (v : Bool) : (s.putReady v).ack = s.ack := rfl
@[simp] theorem State.putReady_errSeq (v : Bool) : (s.putReady v).errSeq = s.errSeq := rfl
@[simp] theorem State.putReady_errOp (v : Bool) : (s.putReady v).errOp = s.errOp := rfl
@[simp] theorem State.putReady_link (v : Bool) : (s.putReady v).link = s.link := rfl
@[simp] theorem State.putReady_sclO (v : Bool) : (s.putReady v).sclO = s.sclO := rfl
@[simp] theorem State.putReady_sdaO (v : Bool) : (s.putReady v).sdaO = s.sdaO := rfl
@[simp] theorem State.putReady_sdaOe (v : Bool) : (s.putReady v).sdaOe = s.sdaOe := rfl
@[simp] theorem State.putReady_result (v : Bool) : (s.putReady v).result = s.result := rfl
@[simp] theorem State.putReady_seq (v : Bool) : (s.putReady v).seq = s.seq := rfl
@[simp] theorem State.putReady_devAddr (v : Bool) : (s.putReady v).devAddr = s.devAddr := rfl
@[simp] theorem State.putReady_regSel (v : Bool) : (s.putReady v).regSel = s.regSel := rfl
@[simp] theorem State.putReady_trace (v : Bool) : (s.putReady v).trace = s.trace := rfl
@[simp] theorem State.putReady_samples (v : Bool) : (s.putReady v).samples = s.samples := rfl
@[simp] theorem State.putReady_drawn (v : Bool) : (s.putReady v).drawn = s.drawn := rfl
@[simp] theorem State.putReady_host (v : Bool) : (s.putReady v).host = s.host := rfl
@[simp] theorem State.putReady_reads (v : Bool) : (s.putReady v).reads = s.reads := rfl
@[simp] theorem State.putReady_outReads (v : Bool) : (s.putReady v).outReads = s.outReads := rfl

@[simp] theorem State.putResult_calLo (v : Word32) : (s.putResult v).calLo = s.calLo := rfl
@[simp] theorem State.putResult_calHi (v : Word32) : (s.putResult v).calHi = s.calHi := rfl
@[simp] theorem State.putResult_calEn (v : Word32) : (s.putResult v).calEn = s.calEn := rfl
@[simp] theorem State.putResult_outCode (v : Word32) : (s.putResult v).outCode = s.outCode := rfl
@[simp] theorem State.putResult_outValid (v : Word32) : (s.putResult v).outValid = s.outValid := rfl
@[simp] theorem State.putResult_ready (v : Word32) : (s.putResult v).ready = s.ready := rfl
@[simp] theorem State.putResult_ack (v : Word32) : (s.putResult v).ack = s.ack := rfl
@[simp] theorem State.putResult_errSeq (v : Word32) : (s.putResult v).errSeq = s.errSeq := rfl
@[simp] theorem State.putResult_errOp (v : Word32) : (s.putResult v).errOp = s.errOp := rfl
@[simp] theorem State.putResult_link (v : Word32) : (s.putResult v).link = s.link := rfl
@[simp] theorem State.putResult_sclO (v : Word32) : (s.putResult v).sclO = s.sclO := rfl
@[simp] theorem State.putResult_sdaO (v : Word32) : (s.putResult v).sdaO = s.sdaO := rfl
@[simp] theorem State.putResult_sdaOe (v : Word32) : (s.putResult v).sdaOe = s.sdaOe := rfl
@[simp] theorem State.putResult_result (v : Word32) : (s.putResult v).result = v := rfl
@[simp] theorem State.putResult_seq (v : Word32) : (s.putResult v).seq = s.seq := rfl
@[simp] theorem State.putResult_devAddr (v : Word32) : (s.putResult v).devAddr = s.devAddr := rfl
@[simp] theorem State.putResult_regSel (v : Word32) : (s.putResult v).regSel = s.regSel := rfl
@[simp] theorem State.putResult_trace (v : Word32) : (s.putResult v).trace = s.trace := rfl
@[simp] theorem State.putResult_samples (v : Word32) : (s.putResult v).samples = s.samples := rfl
@[simp] theorem State.putResult_drawn (v : Word32) : (s.putResult v).drawn = s.drawn := rfl
@[simp] theorem State.putResult_host (v : Word32) : (s.putResult v).host = s.host := rfl
@[simp] theorem State.putResult_reads (v : Word32) : (s.putResult v).reads = s.reads := rfl
@[simp] theorem State.putResult_outReads (v : Word32) : (s.putResult v).outReads = s.outReads := rfl

@[simp] theorem State.putOut_calLo (c : Code) : (s.putOut c).calLo = s.calLo := rfl
@[simp] theorem State.putOut_calHi (c : Code) : (s.putOut c).calHi = s.calHi := rfl
@[simp] theorem State.putOut_calEn (c : Code) : (s.putOut c).calEn = s.calEn := rfl
@[simp] theorem State.putOut_outCode (c : Code) : (s.putOut c).outCode = c := rfl
@[simp] theorem State.putOut_outValid (c : Code) : (s.putOut c).outValid = true := rfl
@[simp] theorem State.putOut_ready (c : Code) : (s.putOut c).ready = s.ready := rfl
@[simp] theorem State.putOut_ack (c : Code) : (s.putOut c).ack = s.ack := rfl
@[simp] theorem State.putOut_errSeq (c : Code) : (s.putOut c).errSeq = s.errSeq := rfl
@[simp] theorem State.putOut_errOp (c : Code) : (s.putOut c).errOp = s.errOp := rfl
@[simp] theorem State.putOut_link (c : Code) : (s.putOut c).link = s.link := rfl
@[simp] theorem State.putOut_sclO (c : Code) : (s.putOut c).sclO = s.sclO := rfl
@[simp] theorem State.putOut_sdaO (c : Code) : (s.putOut c).sdaO = s.sdaO := rfl
@[simp] theorem State.putOut_sdaOe (c : Code) : (s.putOut c).sdaOe = s.sdaOe := rfl
@[simp] theorem State.putOut_result (c : Code) : (s.putOut c).result = s.result := rfl
@[simp] theorem State.putOut_seq (c : Code) : (s.putOut c).seq = s.seq := rfl
@[simp] theorem State.putOut_devAddr (c : Code) : (s.putOut c).devAddr = s.devAddr := rfl
@[simp] theorem State.putOut_regSel (c : Code) : (s.putOut c).regSel = s.regSel := rfl
@[simp] theorem State.putOut_trace (c : Code) : (s.putOut c).trace = s.trace := rfl
@[simp] theorem State.putOut_samples (c : Code) : (s.putOut c).samples = s.samples := rfl
@[simp] theorem State.putOut_drawn (c : Code) : (s.putOut c).drawn = s.drawn := rfl
@[simp] theorem State.putOut_host (c : Code) : (s.putOut c).host = s.host := rfl
@[simp] theorem State.putOut_reads (c : Code) : (s.putOut c).reads = s.reads := rfl
@[simp] theorem State.putOut_outReads (c : Code) : (s.putOut c).outReads = s.outReads := rfl

@[simp] theorem State.putCal_calLo (lo hi : Code) : (s.putCal lo hi).calLo = lo := rfl
@[simp] theorem State.putCal_calHi (lo hi : Code) : (s.putCal lo hi).calHi = hi := rfl
@[simp] theorem State.putCal_calEn (lo hi : Code) : (s.putCal lo hi).calEn = true := rfl
@[simp] theorem State.putCal_outCode (lo hi : Code) : (s.putCal lo hi).outCode = s.outCode := rfl
@[simp] theorem State.putCal_outValid (lo hi : Code) : (s.putCal lo hi).outValid = s.outValid := rfl
@[simp] theorem State.putCal_ready (lo hi : Code) : (s.putCal lo hi).ready = s.ready := rfl
@[simp] theorem State.putCal_ack (lo hi : Code) : (s.putCal lo hi).ack = s.ack := rfl
@[simp] theorem State.putCal_errSeq (lo hi : Code) : (s.putCal lo hi).errSeq = s.errSeq := rfl
@[simp] theorem State.putCal_errOp (lo hi : Code) : (s.putCal lo hi).errOp = s.errOp := rfl
@[simp] theorem State.putCal_link (lo hi : Code) : (s.putCal lo hi).link = s.link := rfl
@[simp] theorem State.putCal_sclO (lo hi : Code) : (s.putCal lo hi).sclO = s.sclO := rfl
@[simp] theorem State.putCal_sdaO (lo hi : Code) : (s.putCal lo hi).sdaO = s.sdaO := rfl
@[simp] theorem State.putCal_sdaOe (lo hi : Code) : (s.putCal lo hi).sdaOe = s.sdaOe := rfl
@[simp] theorem State.putCal_result (lo hi : Code) : (s.putCal lo hi).result = s.result := rfl
@[simp] theorem State.putCal_seq (lo hi : Code) : (s.putCal lo hi).seq = s.seq := rfl
@[simp] theorem State.putCal_devAddr (lo hi : Code) : (s.putCal lo hi).devAddr = s.devAddr := rfl
@[simp] theorem State.putCal_regSel (lo hi : Code) : (s.putCal lo hi).regSel = s.regSel := rfl
@[simp] theorem State.putCal_trace (lo hi : Code) : (s.putCal lo hi).trace = s.trace := rfl
@[simp] theorem State.putCal_samples (lo hi : Code) : (s.putCal lo hi).samples = s.samples := rfl
@[simp] theorem State.putCal_drawn (lo hi : Code) : (s.putCal lo hi).drawn = s.drawn := rfl
@[simp] theorem State.putCal_host (lo hi : Code) : (s.putCal lo hi).host = s.host := rfl
@[simp] theorem State.putCal_reads (lo hi : Code) : (s.putCal lo hi).reads = s.reads := rfl
@[simp] theorem State.putCal_outReads (lo hi : Code) : (s.putCal lo hi).outReads = s.outReads := rfl

@[simp] theorem State.putSeq_calLo (p : Option Progress) : (s.putSeq p).calLo = s.calLo := rfl
@[simp] theorem State.putSeq_calHi (p : Option Progress) : (s.putSeq p).calHi = s.calHi := rfl
@[simp] theorem State.putSeq_calEn (p : Option Progress) : (s.putSeq p).calEn = s.calEn := rfl
@[simp] theorem State.putSeq_outCode (p : Option Progress) : (s.putSeq p).outCode = s.outCode := rfl
@[simp] theorem State.putSeq_outValid (p : Option Progress) : (s.putSeq p).outValid = s.outValid := rfl
@[simp] theorem State.putSeq_ready (p : Option Progress) : (s.putSeq p).ready = s.ready := rfl
@[simp] theorem State.putSeq_ack (p : Option Progress) : (s.putSeq p).ack = s.ack := rfl
@[simp] theorem State.putSeq_errSeq (p : Option Progress) : (s.putSeq p).errSeq = s.errSeq := rfl
@[simp] theorem State.putSeq_errOp (p : Option Progress) : (s.putSeq p).errOp = s.errOp := rfl
@[simp] theorem State.putSeq_link (p : Option Progress) : (s.putSeq p).link = s.link := rfl
@[simp] theorem State.putSeq_sclO (p : Option Progress) : (s.putSeq p).sclO = s.sclO := rfl
@[simp] theorem State.putSeq_sdaO (p : Option Progress) : (s.putSeq p).sdaO = s.sdaO := rfl
@[simp] theorem State.putSeq_sdaOe (p : Option Progress) : (s.putSeq p).sdaOe = s.sdaOe := rfl
@[simp] theorem State.putSeq_result (p : Option Progress) : (s.putSeq p).result = s.result := rfl
@[simp] theorem State.putSeq_seq (p : Option Progress) : (s.putSeq p).seq = p := rfl
@[simp] theorem State.putSeq_devAddr (p : Option Progress) : (s.putSeq p).devAddr = s.devAddr := rfl
@[simp] theorem State.putSeq_regSel (p : Option Progress) : (s.putSeq p).regSel = s.regSel := rfl
@[simp] theorem State.putSeq_trace (p : Option Progress) : (s.putSeq p).trace = s.trace := rfl
@[simp] theorem State.putSeq_samples (p : Option Progress) : (s.putSeq p).samples = s.samples := rfl
@[simp] theorem State.putSeq_drawn (p : Option Progress) : (s.putSeq p).drawn = s.drawn := rfl
@[simp] theorem State.putSeq_host (p : Option Progress) : (s.putSeq p).host = s.host := rfl
@[simp] theorem State.putSeq_reads (p : Option Progress) : (s.putSeq p).reads = s.reads := rfl
@[simp] theorem State.putSeq_outReads (p : Option Progress) : (s.putSeq p).outReads = s.outReads := rfl

@[simp] theorem State.putHost_calLo (h : List HostAct) : (s.putHost h).calLo = s.calLo := rfl
@[simp] theorem State.putHost_calHi (h : List HostAct) : (s.putHost h).calHi = s.calHi := rfl
@[simp] theorem State.putHost_calEn (h : List HostAct) : (s.putHost h).calEn = s.calEn := rfl
@[simp] theorem State.putHost_outCode (h : List HostAct) : (s.putHost h).outCode = s.outCode := rfl
@[simp] theorem State.putHost_outValid (h : List HostAct) : (s.putHost h).outValid = s.outValid := rfl
@[simp] theorem State.putHost_ready (h : List HostAct) : (s.putHost h).ready = s.ready := rfl
@[simp] theorem State.putHost_ack (h : List HostAct) : (s.putHost h).ack = s.ack := rfl
@[simp] theorem State.putHost_errSeq (h : List HostAct) : (s.putHost h).errSeq = s.errSeq := rfl
@[simp] theorem State.putHost_errOp (h : List HostAct) : (s.putHost h).errOp = s.errOp := rfl
@[simp] theorem State.putHost_link (h : List HostAct) : (s.putHost h).link = s.link := rfl
@[simp] theorem State.putHost_sclO (h : List HostAct) : (s.putHost h).sclO = s.sclO := rfl
@[simp] theorem State.putHost_sdaO (h : List HostAct) : (s.putHost h).sdaO = s.sdaO := rfl
@[simp] theorem State.putHost_sdaOe (h : List HostAct) : (s.putHost h).sdaOe = s.sdaOe := rfl
@[simp] theorem State.putHost_result (h : List HostAct) : (s.putHost h).result = s.result := rfl
@[simp] theorem State.putHost_seq (h : List HostAct) : (s.putHost h).seq = s.seq := rfl
@[simp] theorem State.putHost_devAddr (h : List HostAct) : (s.putHost h).devAddr = s.devAddr := rfl
@[simp] theorem State.putHost_regSel (h : List HostAct) : (s.putHost h).regSel = s.regSel := rfl
@[simp] theorem State.putHost_trace (h : List HostAct) : (s.putHost h).trace = s.trace := rfl
@[simp] theorem State.putHost_samples (h : List HostAct) : (s.putHost h).samples = s.samples := rfl
@[simp] theorem State.putHost_drawn (h : List HostAct) : (s.putHost h).drawn = s.drawn := rfl
@[simp] theorem State.putHost_host (h : List HostAct) : (s.putHost h).host = h := rfl
@[simp] theorem State.putHost_reads (h : List HostAct) : (s.putHost h).reads = s.reads := rfl
@[simp] theorem State.putHost_outReads (h : List HostAct) : (s.putHost h).outReads = s.outReads := rfl

@[simp] theorem State.refuseSeq_calLo : (s.refuseSeq).calLo = s.calLo := rfl
@[simp] theorem State.refuseSeq_calHi : (s.refuseSeq).calHi = s.calHi := rfl
@[simp] theorem State.refuseSeq_calEn : (s.refuseSeq).calEn = s.calEn := rfl
@[simp] theorem State.refuseSeq_outCode : (s.refuseSeq).outCode = s.outCode := rfl
@[simp] theorem State.refuseSeq_outValid : (s.refuseSeq).outValid = s.outValid := rfl
@[simp] theorem State.refuseSeq_ready : (s.refuseSeq).ready = s.ready := rfl
@[simp] theorem State.refuseSeq_ack : (s.refuseSeq).ack = s.ack := rfl
@[simp] theorem State.refuseSeq_errSeq : (s.refuseSeq).errSeq = true := rfl
@[simp] theorem State.refuseSeq_errOp : (s.refuseSeq).errOp = s.errOp := rfl
@[simp] theorem State.refuseSeq_link : (s.refuseSeq).link = s.link := rfl
@[simp] theorem State.refuseSeq_sclO : (s.refuseSeq).sclO = s.sclO := rfl
@[simp] theorem State.refuseSeq_sdaO : (s.refuseSeq).sdaO = s.sdaO := rfl
@[simp] theorem State.refuseSeq_sdaOe : (s.refuseSeq).sdaOe = s.sdaOe := rfl
@[simp] theorem State.refuseSeq_result : (s.refuseSeq).result = s.result := rfl
@[simp] theorem State.refuseSeq_seq : (s.refuseSeq).seq = s.seq := rfl
@[simp] theorem State.refuseSeq_devAddr : (s.refuseSeq).devAddr = s.devAddr := rfl
@[simp] theorem State.refuseSeq_regSel : (s.refuseSeq).regSel = s.regSel := rfl
@[simp] theorem State.refuseSeq_trace : (s.refuseSeq).trace = s.trace := rfl
@[simp] theorem State.refuseSeq_samples : (s.refuseSeq).samples = s.samples := rfl
@[simp] theorem State.refuseSeq_drawn : (s.refuseSeq).drawn = s.drawn := rfl
@[simp] theorem State.refuseSeq_host : (s.refuseSeq).host = s.host := rfl
@[simp] theorem State.refuseSeq_reads : (s.refuseSeq).reads = s.reads := rfl
@[simp] theorem State.refuseSeq_outReads : (s.refuseSeq).outReads = s.outReads := rfl

@[simp] theorem State.refuseOp_calLo : (s.refuseOp).calLo = s.calLo := rfl
@[simp] theorem State.refuseOp_calHi : (s.refuseOp).calHi = s.calHi := rfl
@[simp] theorem State.refuseOp_calEn : (s.refuseOp).calEn = s.calEn := rfl
@[simp] theorem State.refuseOp_outCode : (s.refuseOp).outCode = s.outCode := rfl
@[simp] theorem State.refuseOp_outValid : (s.refuseOp).outValid = s.outValid := rfl
@[simp] theorem State.refuseOp_ready : (s.refuseOp).ready = s.ready := rfl
@[simp] theorem State.refuseOp_ack : (s.refuseOp).ack = s.ack := rfl
@[simp] theorem State.refuseOp_errSeq : (s.refuseOp).errSeq = s.errSeq := rfl
@[simp] theorem State.refuseOp_errOp : (s.refuseOp).errOp = true := rfl
@[simp] theorem State.refuseOp_link : (s.refuseOp).link = s.link := rfl
@[simp] theorem State.refuseOp_sclO : (s.refuseOp).sclO = s.sclO := rfl
@[simp] theorem State.refuseOp_sdaO : (s.refuseOp).sdaO = s.sdaO := rfl
@[simp] theorem State.refuseOp_sdaOe : (s.refuseOp).sdaOe = s.sdaOe := rfl
@[simp] theorem State.refuseOp_result : (s.refuseOp).result = s.result := rfl
@[simp] theorem State.refuseOp_seq : (s.refuseOp).seq = s.seq := rfl
@[simp] theorem State.refuseOp_devAddr : (s.refuseOp).devAddr = s.devAddr := rfl
@[simp] theorem State.refuseOp_regSel : (s.refuseOp).regSel = s.regSel := rfl
@[simp] theorem State.refuseOp_trace : (s.refuseOp).trace = s.trace := rfl
@[simp] theorem State.refuseOp_samples : (s.refuseOp).samples = s.samples := rfl
@[simp] theorem State.refuseOp_drawn : (s.refuseOp).drawn = s.drawn := rfl
@[simp] theorem State.refuseOp_host : (s.refuseOp).host = s.host := rfl
@[simp] theorem State.refuseOp_reads : (s.refuseOp).reads = s.reads := rfl
@[simp] theorem State.refuseOp_outReads : (s.refuseOp).outReads = s.outReads := rfl

@[simp] theorem State.passSample_calLo : (s.passSample).calLo = s.calLo := rfl
@[simp] theorem State.passSample_calHi : (s.passSample).calHi = s.calHi := rfl
@[simp] theorem State.passSample_calEn : (s.passSample).calEn = s.calEn := rfl
@[simp] theorem State.passSample_outCode : (s.passSample).outCode = s.outCode := rfl
@[simp] theorem State.passSample_outValid : (s.passSample).outValid = s.outValid := rfl
@[simp] theorem State.passSample_ready : (s.passSample).ready = s.ready := rfl
@[simp] theorem State.passSample_ack : (s.passSample).ack = s.ack := rfl
@[simp] theorem State.passSample_errSeq : (s.passSample).errSeq = s.errSeq := rfl
@[simp] theorem State.passSample_errOp : (s.passSample).errOp = s.errOp := rfl
@[simp] theorem State.passSample_link : (s.passSample).link = s.link := rfl
@[simp] theorem State.passSample_sclO : (s.passSample).sclO = s.sclO := rfl
@[simp] theorem State.passSample_sdaO : (s.passSample).sdaO = s.sdaO := rfl
@[simp] theorem State.passSample_sdaOe : (s.passSample).sdaOe = s.sdaOe := rfl
@[simp] theorem State.passSample_result : (s.passSample).result = s.result := rfl
@[simp] theorem State.passSample_seq : (s.passSample).seq = s.seq := rfl
@[simp] theorem State.passSample_devAddr : (s.passSample).devAddr = s.devAddr := rfl
@[simp] theorem State.passSample_regSel : (s.passSample).regSel = s.regSel := rfl
@[simp] theorem State.passSample_trace : (s.passSample).trace = s.trace := rfl
@[simp] theorem State.passSample_samples : (s.passSample).samples = s.samples.tail := rfl
@[simp] theorem State.passSample_drawn : (s.passSample).drawn = s.drawn + 1 := rfl
@[simp] theorem State.passSample_host : (s.passSample).host = s.host := rfl
@[simp] theorem State.passSample_reads : (s.passSample).reads = s.reads := rfl
@[simp] theorem State.passSample_outReads : (s.passSample).outReads = s.outReads := rfl

@[simp] theorem State.noteRead_calLo (n : Nat) (w : Word32) : (s.noteRead n w).calLo = s.calLo := rfl
@[simp] theorem State.noteRead_calHi (n : Nat) (w : Word32) : (s.noteRead n w).calHi = s.calHi := rfl
@[simp] theorem State.noteRead_calEn (n : Nat) (w : Word32) : (s.noteRead n w).calEn = s.calEn := rfl
@[simp] theorem State.noteRead_outCode (n : Nat) (w : Word32) : (s.noteRead n w).outCode = s.outCode := rfl
@[simp] theorem State.noteRead_outValid (n : Nat) (w : Word32) : (s.noteRead n w).outValid = s.outValid := rfl
@[simp] theorem State.noteRead_ready (n : Nat) (w : Word32) : (s.noteRead n w).ready = s.ready := rfl
@[simp] theorem State.noteRead_ack (n : Nat) (w : Word32) : (s.noteRead n w).ack = s.ack := rfl
@[simp] theorem State.noteRead_errSeq (n : Nat) (w : Word32) : (s.noteRead n w).errSeq = s.errSeq := rfl
@[simp] theorem State.noteRead_errOp (n : Nat) (w : Word32) : (s.noteRead n w).errOp = s.errOp := rfl
@[simp] theorem State.noteRead_link (n : Nat) (w : Word32) : (s.noteRead n w).link = s.link := rfl
@[simp] theorem State.noteRead_sclO (n : Nat) (w : Word32) : (s.noteRead n w).sclO = s.sclO := rfl
@[simp] theorem State.noteRead_sdaO (n : Nat) (w : Word32) : (s.noteRead n w).sdaO = s.sdaO := rfl
@[simp] theorem State.noteRead_sdaOe (n : Nat) (w : Word32) : (s.noteRead n w).sdaOe = s.sdaOe := rfl
@[simp] theorem State.noteRead_result (n : Nat) (w : Word32) : (s.noteRead n w).result = s.result := rfl
@[simp] theorem State.noteRead_seq (n : Nat) (w : Word32) : (s.noteRead n w).seq = s.seq := rfl
@[simp] theorem State.noteRead_devAddr (n : Nat) (w : Word32) : (s.noteRead n w).devAddr = s.devAddr := rfl
@[simp] theorem State.noteRead_regSel (n : Nat) (w : Word32) : (s.noteRead n w).regSel = s.regSel := rfl
@[simp] theorem State.noteRead_trace (n : Nat) (w : Word32) : (s.noteRead n w).trace = s.trace := rfl
@[simp] theorem State.noteRead_samples (n : Nat) (w : Word32) : (s.noteRead n w).samples = s.samples := rfl
@[simp] theorem State.noteRead_drawn (n : Nat) (w : Word32) : (s.noteRead n w).drawn = s.drawn := rfl
@[simp] theorem State.noteRead_host (n : Nat) (w : Word32) : (s.noteRead n w).host = s.host := rfl
@[simp] theorem State.noteRead_reads (n : Nat) (w : Word32) :
    (s.noteRead n w).reads = s.reads ++ [⟨n, w⟩] := rfl
@[simp] theorem State.noteRead_outReads (n : Nat) (w : Word32) :
    (s.noteRead n w).outReads = (if n = 3 ∧ s.outValid = false then s.outReads + 1 else s.outReads) := rfl

/-- Writing a field's own value back changes nothing. -/
@[simp] theorem State.putSeq_self : s.putSeq s.seq = s := rfl

/-- The later write of the sequencer's state stands. -/
@[simp] theorem State.putSeq_putSeq (p q : Option Progress) : (s.putSeq p).putSeq q = s.putSeq q := rfl

/-- Writing the absent sequencer state where none is present changes nothing. -/
theorem State.putSeq_none (h : s.seq = none) : s.putSeq none = s := by
  rw [← h]; rfl

end Sys2Proof.Machine
end

