-- ==== Sys2Proof/Laws/Ops.lean ====
section
/-! SUPPORT. What each shared operation can do, said once: samples, the sequencer, acceptance and completion, and the
sequences of the link protocol in closed form. -/

namespace Sys2Proof.Machine

/-! The code of a 16-bit operand. -/

/-- The code is the operand modulo 4096. -/
theorem codeField_toNat (v : BitVec 16) : (codeField v).toNat = v.toNat % 4096 := BitVec.toNat_setWidth ..

/-- The code is the operand's low 12 bits, as the statements write it. -/
theorem codeField_eq (v : BitVec 16) : codeField v = v.extractLsb' 0 12 := BitVec.eq_of_toNat_eq (by
  rw [codeField_toNat]; simp [Config.codeBits])

/-! Samples. -/

/-- After one sample has passed, the k-th coming one is what the next was. -/
theorem State.sampleAt_succ (s t : State) (k : Nat) (h1 : t.samples = s.samples.tail)
    (h2 : t.drawn = s.drawn + 1) : t.sampleAt k = s.sampleAt (k + 1) := by
  unfold State.sampleAt
  rw [h1, h2, List.getElem?_tail]
  cases s.samples[k + 1]? <;> simp [Nat.add_assoc, Nat.add_comm 1]

/-- After `n` samples have passed, the k-th coming one is what the (n + k)-th was. -/
theorem State.sampleAt_add (s t : State) (n k : Nat) (h1 : t.samples = s.samples.drop n)
    (h2 : t.drawn = s.drawn + n) : t.sampleAt k = s.sampleAt (n + k) := by
  unfold State.sampleAt
  rw [h1, h2, List.getElem?_drop]
  cases s.samples[n + k]? <;> simp [Nat.add_assoc]

/-- What is to be sampled depends on the environment's fields alone. -/
theorem State.sampleAt_congr (s t : State) (k : Nat) (h1 : t.samples = s.samples)
    (h2 : t.drawn = s.drawn) : t.sampleAt k = s.sampleAt k := by
  unfold State.sampleAt
  rw [h1, h2]

/-! The sequencer. -/

/-- Running one list after another. -/
theorem runActs_append (xs ys : List Act) (a : Option Bool) (s : State) :
    runActs (xs ++ ys) a s = runActs ys (runActs xs a s).1 (runActs xs a s).2 := by
  induction xs generalizing a s with
  | nil => rfl
  | cons x xs ih => cases x <;> exact ih _ _

/-- A micro-operation neither reads nor writes the sequencer's state. -/
theorem MicroOp.run_putSeq (m : MicroOp) (a : Option Bool) (s : State) (p : Option Progress) :
    m.run a (s.putSeq p) = ((m.run a s).1, (m.run a s).2.putSeq p) := by
  cases m <;> rfl

/-- A register write neither reads nor writes the sequencer's state. -/
theorem Update.run_putSeq (u : Update) (a : Option Bool) (s : State) (p : Option Progress) :
    u.run a (s.putSeq p) = (u.run a s).putSeq p := by
  cases u <;> try rfl
  cases h : s.ack <;> simp [Update.run, h] <;> rfl

/-- Running a list neither reads nor writes the sequencer's state. -/
theorem runActs_putSeq (acts : List Act) (a : Option Bool) (s : State) (p : Option Progress) :
    runActs acts a (s.putSeq p) = ((runActs acts a s).1, (runActs acts a s).2.putSeq p) := by
  induction acts generalizing a s with
  | nil => rfl
  | cons x xs ih =>
    cases x with
    | op m => simp only [runActs, MicroOp.run_putSeq]; exact ih _ _
    | upd u => simp only [runActs, Update.run_putSeq]; exact ih _ _

/-- Finishing what has been settled is running it all. -/
theorem settle_finish (cmd : Instr) (n : Nat) (acts : List Act) (a : Option Bool) (s : State) :
    (settle cmd n acts a s).finish = (runActs acts a s).2.putSeq none := by
  induction acts generalizing a s with
  | nil => rfl
  | cons x xs ih =>
    cases x with
    | op m =>
      simp only [settle, State.finish, State.putSeq_seq, State.putSeq_putSeq, runActs_putSeq]
    | upd u => exact ih _ _

/-- Finishing an accepted command is running its list. -/
theorem State.issue_finish (cmd : Instr) (acts : List Act) (s : State) :
    (s.issue cmd acts).finish = (runActs acts none s).2.putSeq none :=
  settle_finish cmd 0 acts none s

/-- A state with no command in progress is finished. -/
theorem State.finish_of_idle (s : State) (h : s.seq = none) : s.finish = s := by
  simp [State.finish, h]

/-- A finished state has no command in progress. -/
theorem State.finish_seq (s : State) : s.finish.seq = none := by
  unfold State.finish
  split
  · assumption
  · simp [runActs_putSeq]

/-- A step of the sequencer does not change what the command in progress will leave. -/
theorem State.advance_finish (s : State) : s.advance.finish = s.finish := by
  unfold State.advance
  split
  · rfl
  · next p hp =>
    have key : s.finish = (runActs p.todo p.sampled (s.putSeq none)).2 := by
      simp [State.finish, hp]
    rw [key]
    split
    · next h => rw [h]; rfl
    · next m rest h =>
      rw [h, settle_finish, runActs_putSeq]; rfl
    · next u rest h =>
      rw [h, settle_finish, runActs_putSeq]; rfl

/-- `BUSY` is 0 exactly where no command is in progress. -/
theorem State.busy_eq_false (s : State) : s.busy = false ↔ s.seq = none := by
  simp [State.busy]

/-- Completion always answers a next state: the held-off state while busy, else the finished command. -/
theorem complete_next (f : State → State) (s t : State) (h : complete f s = .next t) :
    (s.busy = true ∧ t = s) ∨ (s.busy = false ∧ t = (f s).finish) := by
  unfold complete at h
  cases hb : s.busy <;> simp_all

/-- A command presented while `BUSY = 1` is held off. -/
theorem complete_of_busy (f : State → State) (s : State) (h : s.busy = true) :
    complete f s = .next s := by
  simp [complete, h]

/-- A command presented while no command is in progress runs to completion. -/
theorem complete_of_idle (f : State → State) (s : State) (h : s.seq = none) :
    complete f s = .next (f s).finish := by
  simp [complete, State.busy, h]

/-- A command that needs the bus free, with the bus free: its list is run. -/
theorem complete_issueClosed (cmd : Instr) (acts : List Act) (s : State) (h : s.seq = none)
    (hl : s.link ≠ .started) :
    complete (State.issueClosed cmd acts) s = .next ((runActs acts none s).2.putSeq none) := by
  rw [complete_of_idle _ _ h, State.issueClosed, if_neg hl, State.issue_finish]

/-- A command that needs the bus free, with a transaction open: `ERR_SEQ` and nothing else. -/
theorem complete_issueClosed_refused (cmd : Instr) (acts : List Act) (s : State)
    (h : s.seq = none) (hl : s.link = .started) :
    complete (State.issueClosed cmd acts) s = .next s.refuseSeq := by
  rw [complete_of_idle _ _ h, State.issueClosed, if_pos hl,
    State.finish_of_idle s.refuseSeq h]

/-- A command that needs an open transaction, with one open: its list is run. -/
theorem complete_issueOpen (cmd : Instr) (acts : List Act) (s : State) (h : s.seq = none)
    (hl : s.link = .started) :
    complete (State.issueOpen cmd acts) s = .next ((runActs acts none s).2.putSeq none) := by
  rw [complete_of_idle _ _ h, State.issueOpen, if_pos hl, State.issue_finish]

/-- A command that needs an open transaction, with none open: `ERR_SEQ` and nothing else. -/
theorem complete_issueOpen_refused (cmd : Instr) (acts : List Act) (s : State)
    (h : s.seq = none) (hl : s.link ≠ .started) :
    complete (State.issueOpen cmd acts) s = .next s.refuseSeq := by
  rw [complete_of_idle _ _ h, State.issueOpen, if_neg hl,
    State.finish_of_idle s.refuseSeq h]

/-! The sequences of the link protocol. -/

/-- START's lines, run. -/
theorem runActs_startActs (a : Option Bool) (s : State) :
    runActs startActs a s =
      (a, { s with
        sclO := false, sdaO := false, link := .started, trace := s.trace ++ startEvents }) := by
  simp [startActs, runActs, MicroOp.run, Update.run, startEvents, State.emit, State.putScl,
    State.putSda, State.putLink]

/-- STOP's lines, run. -/
theorem runActs_stopActs (a : Option Bool) (s : State) :
    runActs stopActs a s =
      (a, { s with
        sclO := true, sdaO := true, link := .stopped, trace := s.trace ++ stopEvents }) := by
  simp [stopActs, runActs, MicroOp.run, Update.run, stopEvents, State.emit, State.putScl,
    State.putSda, State.putLink]

/-- One data bit's lines, run. -/
theorem runActs_bitActs (v h : Bool) (a : Option Bool) (s : State) :
    runActs (bitActs v h) a s =
      (a, { s with sclO := false, sdaO := v, trace := s.trace ++ bitEvents h v }) := by
  cases h <;>
    simp [bitActs, runActs, MicroOp.run, bitEvents, State.emit, State.putScl, State.putSda]

/-- The acknowledgment slot's lines, run. -/
theorem runActs_ackActs (a : Option Bool) (s : State) :
    runActs ackActs a s =
      (some (s.sampleAt 0), { s with
        sclO := false, sdaOe := true, ack := s.sampleAt 0
        samples := s.samples.tail, drawn := s.drawn + 1
        trace := s.trace ++
          [.dir .input, .scl true, .sample (s.sampleAt 0), .scl false, .dir .output] }) := by
  simp [ackActs, runActs, MicroOp.run, Update.run, State.emit, State.putScl, State.putSdaOe,
    State.putAck, State.passSample, State.sampleAt]

/-- TXBYTE's lines, run: one sample passes and is held in `ACK`, the data latch keeps bit 0. -/
theorem runActs_txByteActs (b : Byte) (h : Bool) (a : Option Bool) (s : State) :
    runActs (txByteActs b h) a s =
      (some (s.sampleAt 0), { s with
        sclO := false, sdaO := b.getLsbD 0, sdaOe := true, ack := s.sampleAt 0
        samples := s.samples.tail, drawn := s.drawn + 1
        trace := s.trace ++ byteEvents b h (s.sampleAt 0) }) := by
  simp [txByteActs, bitsOf, runActs_append, runActs_bitActs, runActs_ackActs, byteEvents,
    State.sampleAt]

/-! Finished commands. -/

/-- Accepting an instruction and finishing it is its meaning, where no command is in progress. -/
theorem exec_eq_accept_finish (i : Instr) (s : State) (h : s.seq = none) :
    exec i s = .next (accept i s).finish := by
  cases i <;> exact complete_of_idle _ _ h

/-- Every meaning holds a command off while one is in progress. -/
theorem exec_of_busy (i : Instr) (s : State) (h : s.busy = true) : exec i s = .next s := by
  cases i <;> exact complete_of_busy _ _ h

end Sys2Proof.Machine
end

