-- ==== Sys2Proof/Laws/Transactions.lean ====
section
/-! SUPPORT. What a whole transaction does, for any list of bytes, and the closed form of every bus command's sequence. -/

namespace Sys2Proof.Machine

/-- The cells of a list of bytes, the first of them acknowledged as the k-th coming sample says. -/
def cellsFrom (ack : Nat → Bool) : Nat → List (Byte × Bool) → List Cell
  | _, [] => []
  | k, x :: xs => ⟨x.1, x.2, ack k⟩ :: cellsFrom ack (k + 1) xs

/-- The cells depend on the acknowledgments from the k-th on alone. -/
theorem cellsFrom_shift (f g : Nat → Bool) (k m : Nat) (xs : List (Byte × Bool))
    (h : ∀ j, f (k + j) = g (m + j)) : cellsFrom f k xs = cellsFrom g m xs := by
  induction xs generalizing k m with
  | nil => rfl
  | cons x xs ih =>
    have h0 := h 0
    simp only [Nat.add_zero] at h0
    rw [cellsFrom, cellsFrom, h0, ih (k + 1) (m + 1) fun j => by
      rw [Nat.add_assoc, Nat.add_assoc]; exact h (1 + j)]

/-- Two consecutive bus runs are one. -/
theorem State.busRun_busRun (s : State) (n m : Nat) (es fs : List Event) :
    (s.busRun n es).busRun m fs = s.busRun (n + m) (es ++ fs) := by
  rcases m with _ | m
  · simp [State.busRun]
  · have h : (s.busRun n es).sampleAt m = s.sampleAt (n + m) :=
      State.sampleAt_add s _ n m rfl rfl
    unfold State.busRun at h ⊢
    simp [h, Nat.add_assoc]

/-- The state one byte of a transaction leaves. -/
def State.sentByte (s : State) (b : Byte) (h : Bool) : State :=
  { s with
    sclO := false, sdaO := b.getLsbD 0, sdaOe := true, ack := s.sampleAt 0
    samples := s.samples.tail, drawn := s.drawn + 1
    trace := s.trace ++ byteEvents b h (s.sampleAt 0) }

/-- After a byte, the coming samples are those past it. -/
theorem State.sampleAt_sentByte (s : State) (b : Byte) (h : Bool) (k : Nat) :
    (s.sentByte b h).sampleAt k = s.sampleAt (k + 1) :=
  State.sampleAt_succ s _ k rfl rfl

/-- A bus run after a byte is a bus run of one byte more, but for the lines. -/
theorem State.sentByte_busRun (s : State) (b : Byte) (h : Bool) (n : Nat) (es : List Event) :
    (s.sentByte b h).busRun n es =
      { s.busRun (n + 1) (byteEvents b h (s.sampleAt 0) ++ es) with
        sclO := false, sdaO := b.getLsbD 0, sdaOe := true } := by
  rcases n with _ | n
  · simp [State.busRun, State.sentByte]
  · have hs := s.sampleAt_sentByte b h n
    unfold State.busRun State.sentByte at hs ⊢
    simp [Nat.add_comm 1, Nat.add_assoc]
    exact hs

/-- A list of bytes, run: all of them pass a sample each, and the lines are left as the last byte leaves them. -/
theorem runActs_bytes (bytes : List (Byte × Bool)) (a : Option Bool) (s : State) :
    ∃ a' v, runActs (bytes.flatMap fun x => txByteActs x.1 x.2) a s =
      (a', { s.busRun bytes.length
          ((cellsFrom s.sampleAt 0 bytes).flatMap fun c => byteEvents c.byte c.hold c.ack) with
        sclO := if bytes = [] then s.sclO else false
        sdaO := v
        sdaOe := if bytes = [] then s.sdaOe else true }) := by
  induction bytes generalizing a s with
  | nil => exact ⟨a, s.sdaO, by simp [runActs, cellsFrom, State.busRun]⟩
  | cons x xs ih =>
    rw [List.flatMap_cons, runActs_append, runActs_txByteActs]
    obtain ⟨a', v, h⟩ := ih (some (s.sampleAt 0)) (s.sentByte x.1 x.2)
    refine ⟨a', v, h.trans ?_⟩
    rw [cellsFrom_shift _ s.sampleAt 0 (0 + 1) xs fun j => by
      rw [Nat.zero_add, s.sampleAt_sentByte, Nat.zero_add, Nat.add_comm 1], s.sentByte_busRun]
    rcases xs with _ | ⟨y, ys⟩
    · simp [State.busRun, State.sentByte, cellsFrom]
    · simp [cellsFrom]

/-- A transaction with at least one byte, run: the closed bus it leaves, its events and its last acknowledgment. -/
theorem runActs_transaction (bytes : List (Byte × Bool)) (hb : bytes ≠ []) (a : Option Bool)
    (s : State) :
    ∃ a', runActs (transactionActs bytes) a s =
      (a', s.closedRun bytes.length (transactionEvents (cellsFrom s.sampleAt 0 bytes))) := by
  rw [transactionActs, runActs_append, runActs_append, runActs_startActs]
  obtain ⟨a', v, h⟩ := runActs_bytes bytes a
    { s with sclO := false, sdaO := false, link := .started, trace := s.trace ++ startEvents }
  refine ⟨a', ?_⟩
  rw [h, runActs_stopActs]
  have hs : ∀ k, State.sampleAt { s with
      sclO := false, sdaO := false, link := .started, trace := s.trace ++ startEvents } k =
      s.sampleAt k := fun k => State.sampleAt_congr s _ k rfl rfl
  rw [cellsFrom_shift _ s.sampleAt 0 0 bytes fun j => hs _]
  simp [State.closedRun, State.busRun, transactionEvents, hb, hs]

/-- Two consecutive closed runs are one. -/
theorem State.closedRun_closedRun (s : State) (n m : Nat) (es fs : List Event) :
    (s.closedRun n es).closedRun m fs = s.closedRun (n + m) (es ++ fs) := by
  have h := State.busRun_busRun s n m es fs
  rcases m with _ | m
  · simp [State.closedRun, State.busRun]
  · have h' : (s.closedRun n es).sampleAt m = s.sampleAt (n + m) :=
      State.sampleAt_add s _ n m rfl rfl
    unfold State.closedRun State.busRun at h' ⊢
    simp [h', Nat.add_assoc]

/-- After a closed run, the coming samples are those past it. -/
theorem State.sampleAt_closedRun (s : State) (n : Nat) (es : List Event) (k : Nat) :
    (s.closedRun n es).sampleAt k = s.sampleAt (n + k) :=
  State.sampleAt_add s _ n k rfl rfl

end Sys2Proof.Machine
end

