-- ==== Sys2Proof/Laws/Steps.lean ====
section
/-! SUPPORT. What an acceptance, a meaning and a step can do, said once; which register writes each instruction's lines
hold; and what every line of a list keeps, the whole list keeps. -/

namespace Sys2Proof.Machine

/-! What an instruction is: its lines, or a refusal. -/

/-- The lines of an instruction accepted in a state. -/
def actsOf (i : Instr) (s : State) : List Act :=
  match i with
  | .probe => probeActs s
  | .setCal lo hi =>
    if calValid lo hi then [.upd (.setCal (codeField lo) (codeField hi))] else []
  | .writeCode c => writeCodeActs s (maskCode c)
  | .writeCurrent x =>
    writeCodeActs s (s.toCode x) ++ [.upd (.setResult ((s.toCode x).setWidth 32))]
  | .store => storeActs s
  | .start => startActs
  | .stop => stopActs
  | .txByte b nh => txByteActs b (!nh) ++ [.upd .resultFromAck]
  | .addrByte a => txByteActs (addrByteOf a) true
  | .probeFrame a => transactionActs (probeBytes (addrByteOf a))
  | .writeCodeFrame a r l h => transactionActs (writeBytes (addrByteOf a) r (l ++ 0#4) h)
  | .storeFrame1 => transactionActs storeBytes1
  | .storeFrame2 => transactionActs storeBytes2
  | .storeFrame3 a => transactionActs (storeBytes3 (addrByteOf a))

/-- An acceptance issues the instruction's lines or sets `ERR_SEQ`. -/
theorem accept_cases (i : Instr) (s : State) :
    accept i s = s.issue i (actsOf i s) ∨ accept i s = s.refuseSeq := by
  cases i <;>
    simp only [accept, acceptProbe, acceptSetCal, acceptWriteCode, acceptWriteCurrent,
      acceptStore, acceptStart, acceptStop, acceptTxByte, acceptAddrByte, acceptProbeFrame,
      acceptWriteCodeFrame, acceptStoreFrame1, acceptStoreFrame2, acceptStoreFrame3,
      State.issueClosed, State.issueOpen, actsOf]
  case setCal => exact .inl trivial
  all_goals split
  all_goals first | exact .inr rfl | exact .inl rfl

/-- A meaning holds the command off, refuses it by `ERR_SEQ`, or runs its lines. -/
theorem exec_cases (i : Instr) (s t : State) (h : exec i s = .next t) :
    (s.busy = true ∧ t = s) ∨ (s.seq = none ∧ t = s.refuseSeq) ∨
    (s.seq = none ∧ t = (runActs (actsOf i s) none s).2.putSeq none) := by
  cases hb : s.busy
  · have hs := s.busy_eq_false.1 hb
    rw [exec_eq_accept_finish i s hs] at h
    injection h with h
    rcases accept_cases i s with ha | ha
    · rw [ha, State.issue_finish] at h
      exact .inr (.inr ⟨hs, h.symm⟩)
    · rw [ha, State.finish_of_idle s.refuseSeq hs] at h
      exact .inr (.inl ⟨hs, h.symm⟩)
  · rw [exec_of_busy i s hb] at h
    injection h with h
    exact .inl ⟨rfl, h.symm⟩

/-- The link states an instruction is refused in (R130, R134, R157; the wire patterns by assumption log 5). -/
def refusedIn (i : Instr) (l : LinkState) : Bool :=
  match i with
  | .setCal _ _ => false
  | .stop => l ≠ .started
  | .txByte _ _ => l ≠ .started
  | .addrByte _ => l ≠ .started
  | _ => l = .started

/-- Acceptance, by the link state. -/
theorem accept_eq (i : Instr) (s : State) :
    accept i s = if refusedIn i s.link then s.refuseSeq else s.issue i (actsOf i s) := by
  have closed : ∀ cmd acts, s.issueClosed cmd acts =
      if decide (s.link = .started) = true then s.refuseSeq else s.issue cmd acts := by
    intro cmd acts
    simp only [State.issueClosed, decide_eq_true_eq]
  have opened : ∀ cmd acts, s.issueOpen cmd acts =
      if decide (s.link ≠ .started) = true then s.refuseSeq else s.issue cmd acts := by
    intro cmd acts
    simp only [State.issueOpen, decide_eq_true_eq]
    by_cases h : s.link = .started
    · rw [if_pos h, if_neg (fun h' => h' h)]
    · rw [if_neg h, if_pos h]
  cases i with
  | setCal lo hi => rfl
  | stop => exact opened _ _
  | txByte b nh => exact opened _ _
  | addrByte a => exact opened _ _
  | probe => exact closed _ _
  | writeCode c => exact closed _ _
  | writeCurrent c => exact closed _ _
  | store => exact closed _ _
  | start => exact closed _ _
  | probeFrame a => exact closed _ _
  | writeCodeFrame a r l h => exact closed _ _
  | storeFrame1 => exact closed _ _
  | storeFrame2 => exact closed _ _
  | storeFrame3 a => exact closed _ _

/-- An instruction given to an idle master is refused by its link state or runs its lines. -/
theorem exec_of_idle (i : Instr) (s : State) (hs : s.seq = none) :
    exec i s = .next (if refusedIn i s.link then s.refuseSeq
      else (runActs (actsOf i s) none s).2.putSeq none) := by
  rw [exec_eq_accept_finish i s hs, accept_eq]
  split
  · rw [State.finish_of_idle s.refuseSeq hs]
  · rw [State.issue_finish]

/-! What a step is. -/

/-- A step that answers a next state advances the sequencer, resets, answers a read, refuses a reserved opcode, accepts a
posted command, or runs a called one. -/
theorem step_cases (s t : State) (h : step s = .next t) :
    t = s.advance ∨ (∃ rest, t = (s.putHost rest).advance) ∨
    (∃ d r rest, s.host = .reset d r :: rest ∧ t = (s.putHost rest).resetNow d r) ∨
    (∃ n v rest, t = (s.putHost rest).noteRead n v) ∨
    (∃ rest, s.seq = none ∧ t = (s.putHost rest).refuseOp) ∨
    (∃ i rest, s.seq = none ∧ t = accept i (s.putHost rest)) ∨
    (∃ i rest, s.seq = none ∧ exec i (s.putHost rest) = .next t) := by
  unfold step State.fetch at h
  rcases hh : s.host with _ | ⟨a, rest⟩
  · simp only [hh] at h
    injection h with h
    exact .inl h.symm
  · cases hb : s.busy
    · have hs := s.busy_eq_false.1 hb
      cases a with
      | wait =>
        simp only [hh] at h
        injection h with h
        exact .inr (.inl ⟨_, h.symm⟩)
      | reset d r =>
        simp only [hh] at h
        injection h with h
        exact .inr (.inr (.inl ⟨_, _, _, rfl, h.symm⟩))
      | read n =>
        simp only [hh, takeRead] at h
        cases hv : (s.putHost rest).statusRead n <;> simp only [hv] at h
        · cases h
        · injection h with h
          exact .inr (.inr (.inr (.inl ⟨_, _, _, h.symm⟩)))
      | call w =>
        simp only [hh, hb, takeCall] at h
        cases hd : decode (.command w) <;> simp only [hd] at h
        · injection h with h
          exact .inr (.inr (.inr (.inr (.inl ⟨_, hs, h.symm⟩))))
        · exact .inr (.inr (.inr (.inr (.inr (.inr ⟨_, _, hs, h⟩)))))
      | post w =>
        simp only [hh, hb, takePost] at h
        cases hd : decode (.command w) <;> simp only [hd] at h
        · injection h with h
          exact .inr (.inr (.inr (.inr (.inl ⟨_, hs, h.symm⟩))))
        · injection h with h
          exact .inr (.inr (.inr (.inr (.inr (.inl ⟨_, _, hs, h.symm⟩)))))
      | frame f =>
        simp only [hh, hb, takeFrame] at h
        cases hd : decode (.wire f) <;> simp only [hd] at h
        · cases h
        · exact .inr (.inr (.inr (.inr (.inr (.inr ⟨_, _, hs, h⟩)))))
    · cases a with
      | wait =>
        simp only [hh] at h
        injection h with h
        exact .inr (.inl ⟨_, h.symm⟩)
      | reset d r =>
        simp only [hh] at h
        injection h with h
        exact .inr (.inr (.inl ⟨_, _, _, rfl, h.symm⟩))
      | read n =>
        simp only [hh, takeRead] at h
        cases hv : (s.putHost rest).statusRead n <;> simp only [hv] at h
        · cases h
        · injection h with h
          exact .inr (.inr (.inr (.inl ⟨_, _, _, h.symm⟩)))
      | call w =>
        simp only [hh, hb] at h
        injection h with h
        exact .inl h.symm
      | post w =>
        simp only [hh, hb] at h
        injection h with h
        exact .inl h.symm
      | frame f =>
        simp only [hh, hb] at h
        injection h with h
        exact .inl h.symm

/-! What every line keeps, the list keeps. -/

/-- What every micro-operation and every register write of a list keeps, running the list keeps. -/
theorem runActs_keep (P : State → Prop) (acts : List Act)
    (hop : ∀ (m : MicroOp) a s, P s → P (m.run a s).2)
    (hupd : ∀ u, .upd u ∈ acts → ∀ a s, P s → P (u.run a s))
    (a : Option Bool) (s : State) (h : P s) : P (runActs acts a s).2 := by
  induction acts generalizing a s with
  | nil => exact h
  | cons x xs ih =>
    cases x with
    | op m => exact ih (fun u hu => hupd u (List.mem_cons_of_mem _ hu)) _ _ (hop m a s h)
    | upd u =>
      exact ih (fun u hu => hupd u (List.mem_cons_of_mem _ hu)) _ _
        (hupd u (List.mem_cons_self ..) a s h)

/-- What every register write of a list keeps, settling the list keeps. -/
theorem settle_keep (P : State → Prop) (cmd : Instr) (n : Nat) (acts : List Act)
    (hupd : ∀ u, .upd u ∈ acts → ∀ a s, P s → P (u.run a s))
    (hq : ∀ s q, P s → P (s.putSeq q)) (a : Option Bool) (s : State) (h : P s) :
    P (settle cmd n acts a s) := by
  induction acts generalizing a s with
  | nil => exact hq _ _ h
  | cons x xs ih =>
    cases x with
    | op m => exact hq _ _ h
    | upd u =>
      exact ih (fun u hu => hupd u (List.mem_cons_of_mem _ hu)) _ _
        (hupd u (List.mem_cons_self ..) a s h)

/-- Running a list appends some events to the trace, and appends the same whatever the trace was. -/
theorem runActs_trace (acts : List Act) (a : Option Bool) (s : State) :
    ∃ es, (runActs acts a s).2.trace = s.trace ++ es ∧
      ∀ tr, runActs acts a { s with trace := tr } =
        ((runActs acts a s).1, { (runActs acts a s).2 with trace := tr ++ es }) := by
  induction acts generalizing a s with
  | nil => exact ⟨[], by simp [runActs], fun tr => by simp [runActs]⟩
  | cons x xs ih =>
    cases x with
    | op m =>
      have : ∃ e, (m.run a s).2.trace = s.trace ++ [e] ∧
          ∀ tr, m.run a { s with trace := tr } =
            ((m.run a s).1, { (m.run a s).2 with trace := tr ++ [e] }) := by
        cases m <;> exact ⟨_, rfl, fun tr => rfl⟩
      obtain ⟨e, h1, h2⟩ := this
      obtain ⟨es, h3, h4⟩ := ih (m.run a s).1 (m.run a s).2
      refine ⟨e :: es, by simp [runActs, h3, h1], fun tr => ?_⟩
      rw [runActs, h2, h4]
      simp [runActs]
    | upd u =>
      have : (u.run a s).trace = s.trace ∧
          ∀ tr, u.run a { s with trace := tr } = { u.run a s with trace := tr } := by
        cases u <;> first
          | exact ⟨rfl, fun tr => rfl⟩
          | (cases h : s.ack <;> simp [Update.run, h] <;> intros <;> rfl)
      obtain ⟨es, h3, h4⟩ := ih a (u.run a s)
      refine ⟨es, by simp [runActs, h3, this.1], fun tr => ?_⟩
      rw [runActs, this.2, h4]
      simp [runActs]

/-- The host's side of the state takes no part in running a list. -/
theorem runActs_host (acts : List Act) (a : Option Bool) (s : State) (h : List HostAct)
    (r : List StatusRead) (k : Nat) :
    runActs acts a { s with host := h, reads := r, outReads := k } =
      ((runActs acts a s).1,
        { (runActs acts a s).2 with host := h, reads := r, outReads := k }) := by
  induction acts generalizing a s with
  | nil => rfl
  | cons x xs ih =>
    cases x with
    | op m =>
      have : m.run a { s with host := h, reads := r, outReads := k } =
          ((m.run a s).1, { (m.run a s).2 with host := h, reads := r, outReads := k }) := by
        cases m <;> rfl
      rw [runActs, this, ih]
      rfl
    | upd u =>
      have : u.run a { s with host := h, reads := r, outReads := k } =
          { u.run a s with host := h, reads := r, outReads := k } := by
        cases u <;> first
          | rfl
          | (cases hh : s.ack <;> simp [Update.run, hh] <;> rfl)
      rw [runActs, this, ih]
      rfl

/-! The register writes among an instruction's lines. -/

/-- TXBYTE's lines write `ACK` alone. -/
theorem upd_mem_txByteActs (u : Update) (b : Byte) (h : Bool)
    (hu : Act.upd u ∈ txByteActs b h) : u = .ackFromSample := by
  cases h <;> simp [txByteActs, bitsOf, bitActs, ackActs] at hu <;> exact hu

/-- A transaction's lines write `ACK` and `LINK` alone. -/
theorem upd_mem_transactionActs (u : Update) (bs : List (Byte × Bool))
    (hu : Act.upd u ∈ transactionActs bs) : u = .ackFromSample ∨ ∃ l, u = .setLink l := by
  simp only [transactionActs, List.mem_append, List.mem_flatMap] at hu
  rcases hu with (hu | ⟨x, _, hu⟩) | hu
  · simp [startActs] at hu
    exact .inr ⟨_, hu⟩
  · exact .inl (upd_mem_txByteActs _ _ _ hu)
  · simp [stopActs] at hu
    exact .inr ⟨_, hu⟩

/-- WRITE_CODE's lines write `ACK`, `LINK`, `OUT_CODE` with `OUT_VALID`, and `RESULT` alone. -/
theorem upd_mem_writeCodeActs (u : Update) (s : State) (c : Code)
    (hu : Act.upd u ∈ writeCodeActs s c) :
    u = .ackFromSample ∨ (∃ l, u = .setLink l) ∨ u = .setOut c ∨ ∃ v, u = .setResult v := by
  simp only [writeCodeActs, List.mem_append, List.mem_singleton] at hu
  rcases hu with (hu | hu) | hu
  · injection hu with hu
    exact .inr (.inr (.inl hu))
  · rcases upd_mem_transactionActs _ _ hu with h | h
    · exact .inl h
    · exact .inr (.inl h)
  · injection hu with hu
    exact .inr (.inr (.inr ⟨_, hu⟩))

end Sys2Proof.Machine
end

