-- ==== Sys2Proof/Laws/Lines.lean ====
section
/-! SUPPORT. What the reader of the lines makes of each printed event list, and the measures of each. -/

namespace Sys2Proof.Machine

/-- Reading one list after another. -/
theorem Wire.read_append (w : Wire) (es fs : List Event) :
    w.read (es ++ fs) =
      (((w.read es).1.read fs).1, (w.read es).2 ++ ((w.read es).1.read fs).2) := by
  induction es generalizing w with
  | nil => simp [Wire.read]
  | cons e es ih => simp [Wire.read, ih]

/-- A data bit read off the lines with the clock low in output mode. -/
theorem Wire.read_bitEvents (d h v : Bool) :
    Wire.read ⟨false, d, true, none⟩ (bitEvents h v) = (⟨false, v, true, none⟩, [.bit v]) := by
  revert d h v
  decide

/-- A byte cell read off the lines with the clock low in output mode. -/
theorem Wire.read_byteEvents (d h a : Bool) (b : Byte) :
    Wire.read ⟨false, d, true, none⟩ (byteEvents b h a) =
      (⟨false, b.getLsbD 0, true, none⟩, cellMarks b a) := by
  have key : ∀ d a, Wire.read ⟨false, d, true, none⟩
      [.dir .input, .scl true, .sample a, .scl false, .dir .output] =
      (⟨false, d, true, none⟩, [.ack a]) := by decide
  simp only [byteEvents, Wire.read_append, Wire.read_bitEvents, key, cellMarks,
    List.cons_append, List.nil_append]

/-- A start condition read off lines that are both high. -/
theorem Wire.read_startEvents :
    Wire.read ⟨true, true, true, none⟩ startEvents =
      (⟨false, false, true, none⟩, [.start]) := by decide

/-- A stop condition read off lines with the clock low. -/
theorem Wire.read_stopEvents (d : Bool) :
    Wire.read ⟨false, d, true, none⟩ stopEvents = (⟨true, true, true, none⟩, [.stop]) := by
  revert d
  decide

/-- Byte cells read off the lines. -/
theorem Wire.read_cells (cs : List Cell) (d : Bool) :
    ∃ d', Wire.read ⟨false, d, true, none⟩
        (cs.flatMap fun c => byteEvents c.byte c.hold c.ack) =
      (⟨false, d', true, none⟩,
        (cs.map fun c => (c.byte, c.ack)).flatMap fun c => cellMarks c.1 c.2) := by
  induction cs generalizing d with
  | nil => exact ⟨d, rfl⟩
  | cons c cs ih =>
    obtain ⟨d', h⟩ := ih (c.byte.getLsbD 0)
    exact ⟨d', by
      simp only [List.flatMap_cons, List.map_cons, Wire.read_append, Wire.read_byteEvents, h]⟩

/-- A transaction read off lines that are both high is its frame, and leaves them so. -/
theorem Wire.read_transactionEvents (cs : List Cell) :
    Wire.read ⟨true, true, true, none⟩ (transactionEvents cs) =
      (⟨true, true, true, none⟩, frameMarks (cs.map fun c => (c.byte, c.ack))) := by
  obtain ⟨d, h⟩ := Wire.read_cells cs false
  simp only [transactionEvents, Wire.read_append, Wire.read_startEvents, h,
    Wire.read_stopEvents, frameMarks]

/-- What a state's trace has beyond an earlier one's. -/
theorem State.newEvents_eq (s t : State) (es : List Event) (h : t.trace = s.trace ++ es) :
    t.newEvents s = es := by
  simp [State.newEvents, h]

/-- The lines of a quiet, closed state are both high. -/
theorem State.wire_closed (s : State) (h : s.linesOk = true) (hl : s.link ≠ .started) :
    s.wire = ⟨true, true, true, none⟩ := by
  simp [State.linesOk, hl] at h
  simp [State.wire, h]

/-- The clock of a quiet state with a transaction open is low. -/
theorem State.wire_open (s : State) (h : s.linesOk = true) (hl : s.link = .started) :
    s.wire = ⟨false, s.sdaO, true, none⟩ := by
  simp [State.linesOk, hl] at h
  simp [State.wire, h]

/-- Hold durations add up over lists. -/
theorem holdSum_append (es fs : List Event) : holdSum (es ++ fs) = holdSum es + holdSum fs := by
  simp [holdSum]

/-- Elapsed times add up over lists: the interval between two lists belongs to the second's first event. -/
theorem elapsed_append (es fs : List Event) : elapsed (es ++ fs) = elapsed es + elapsed fs := by
  simp only [elapsed, holdSum_append, List.length_append]
  push_cast
  ring

/-- Clock pulses add up over lists. -/
theorem pulseCount_append (xs ys : List WireMark) :
    pulseCount (xs ++ ys) = pulseCount xs + pulseCount ys := by
  simp [pulseCount]

/-- The events of a byte: 37 with the hold, 29 without. -/
theorem length_byteEvents (b : Byte) (h a : Bool) :
    (byteEvents b h a).length = if h then 37 else 29 := by
  cases h <;> simp [byteEvents, bitEvents]

/-- The holds of a byte. -/
theorem holdSum_byteEvents (b : Byte) (h a : Bool) :
    holdSum (byteEvents b h a) = if h then 40000 else 0 := by
  cases h <;> simp [byteEvents, bitEvents, holdSum, Event.holdTime, Config.tBit]

/-- The pulses of a byte cell. -/
theorem pulseCount_cellMarks (b : Byte) (a : Bool) : pulseCount (cellMarks b a) = 9 := by
  simp [pulseCount, cellMarks]

end Sys2Proof.Machine
end

