-- ==== Sys2Proof/Laws/PerInstr.lean ====
section
/-! SUPPORT. Statements made of each instruction as syntax. The family here: how an instruction is told apart where it is
written (spec/30_encoding.md R81, R89 for a command, R91 to R94 for a wire pattern). -/

namespace Sys2Proof.Laws.Spelling

/-- The opcode of R81 a command is written with, in `CMD[35:32]`; none for a wire pattern. -/
def opcodeOf : Instr → Option (BitVec 4)
  | .probe => some 0x1
  | .setCal _ _ => some 0x2
  | .writeCode _ => some 0x3
  | .writeCurrent _ => some 0x4
  | .store => some 0x5
  | .start => some 0x6
  | .stop => some 0x7
  | .txByte _ _ => some 0x8
  | .addrByte _ => none
  | .probeFrame _ => none
  | .writeCodeFrame _ _ _ _ => none
  | .storeFrame1 => none
  | .storeFrame2 => none
  | .storeFrame3 _ => none

/-- The bytes of a list of symbols. -/
def byteCount (f : List WireSym) : Nat :=
  f.countP fun x =>
    match x with
    | .byte _ => true
    | .s => false
    | .p => false

/-- How many bytes a wire pattern has, its width in the opcode table in bytes; none for a command. -/
def widthOf : Instr → Option Nat
  | .probe => none
  | .setCal _ _ => none
  | .writeCode _ => none
  | .writeCurrent _ => none
  | .store => none
  | .start => none
  | .stop => none
  | .txByte _ _ => none
  | .addrByte _ => some 1
  | .probeFrame _ => some 1
  | .writeCodeFrame _ _ _ _ => some 4
  | .storeFrame1 => some 1
  | .storeFrame2 => some 2
  | .storeFrame3 _ => some 9

/-- A command's word carries the opcode of R81; a wire pattern has the bytes the opcode table gives it. -/
def Statement (i : Instr) : Prop :=
  (∀ w, encode i = .command w → some (opField w) = opcodeOf i) ∧
  (∀ f, encode i = .wire f → some (byteCount f) = widthOf i)

/-- A composed command word meets the statement. -/
theorem of_commandWord (i : Instr) (o : BitVec 4) (x : Word32)
    (h : encode i = .command (commandWord o x)) (ho : opcodeOf i = some o) : Statement i := by
  refine ⟨fun w hw => ?_, fun f hf => ?_⟩
  · rw [h] at hw
    injection hw with hw
    rw [← hw, opField_commandWord, ho]
  · rw [h] at hf
    cases hf

/-- A list of symbols meets the statement. -/
theorem of_wire (i : Instr) (f : List WireSym) (h : encode i = .wire f)
    (hn : widthOf i = some (byteCount f)) : Statement i := by
  refine ⟨fun w hw => ?_, fun g hg => ?_⟩
  · rw [h] at hw
    cases hw
  · rw [h] at hg
    injection hg with hg
    rw [← hg, hn]

theorem probe : Statement .probe := of_commandWord _ _ _ rfl rfl
theorem setCal (lo hi : BitVec 16) : Statement (.setCal lo hi) := of_commandWord _ _ _ rfl rfl
theorem writeCode (code : BitVec 16) : Statement (.writeCode code) :=
  of_commandWord _ _ _ rfl rfl
theorem writeCurrent (iIn : BitVec 32) : Statement (.writeCurrent iIn) :=
  of_commandWord _ _ _ rfl rfl
theorem store : Statement .store := of_commandWord _ _ _ rfl rfl
theorem start : Statement .start := of_commandWord _ _ _ rfl rfl
theorem stop : Statement .stop := of_commandWord _ _ _ rfl rfl
theorem txByte (byte : Byte) (nh : Bool) : Statement (.txByte byte nh) :=
  of_commandWord _ _ _ rfl rfl
theorem addrByte (a : BitVec 7) : Statement (.addrByte a) := of_wire _ _ rfl rfl
theorem probeFrame (a : BitVec 7) : Statement (.probeFrame a) := of_wire _ _ rfl rfl
theorem writeCodeFrame (a : BitVec 7) (r : Byte) (l : BitVec 4) (h : Byte) :
    Statement (.writeCodeFrame a r l h) := of_wire _ _ rfl rfl
theorem storeFrame1 : Statement .storeFrame1 := of_wire _ _ rfl rfl
theorem storeFrame2 : Statement .storeFrame2 := of_wire _ _ rfl rfl
theorem storeFrame3 (a : BitVec 7) : Statement (.storeFrame3 a) := of_wire _ _ rfl rfl

end Sys2Proof.Laws.Spelling
end

