-- ==== Sys2Proof/Tests/Slice0.lean ====
section
/-! SUPPORT. The model's own tests. Expected values come from the spec: the vectors of spec/95_test_vectors.md (E1 to E9, V1 to
V80), the tables of R35, R81 and R91 to R94, or hand calculation from a rule. The example configuration is that file's:
`DEV_ADDR = 0x58`, `REG_SEL = 0x02`. A theorem `witness_<Name>` shows a state and operands that meet the hypotheses of
`Obligations.<Name>`, clause by clause where it has several. -/

namespace Sys2Proof.Tests

open Sys2Proof.Machine

/-! States. -/

/-- The reset state of the example configuration, the coming samples fixed. -/
def fresh (samples : List Bool) : State :=
  { State.resetWith 0x58 0x02 with samples := samples }

/-- A transaction is open (what V10 leaves). -/
def opened (samples : List Bool) : State :=
  { fresh samples with link := .started, sclO := false, sdaO := false }

/-- A transaction has been closed (what V11 leaves). -/
def closed (samples : List Bool) : State := { fresh samples with link := .stopped }

/-- Calibrated with a pair. -/
def calibrated (lo hi : Code) : State :=
  { fresh [] with calEn := true, calLo := lo, calHi := hi }

/-- A START has been accepted and stands before its first micro-operation. -/
def starting : State := accept .start (fresh [])

/-- What the host does next. -/
def withHost (s : State) (h : List HostAct) : State := { s with host := h }

/-- Something of the state an outcome holds. -/
def seen {α : Type} (o : Host.Outcome State Fault Refusal) (f : State → α) : Option α :=
  match o with
  | .next s => some (f s)
  | .fault _ => none
  | .refused _ => none

/-- Whether an outcome is one fault. -/
def stopsWith (o : Host.Outcome State Fault Refusal) (r : Fault) : Bool :=
  match o with
  | .next _ => false
  | .fault q => q == r
  | .refused _ => false

/-- Whether an outcome is one refusal. -/
def refusedWith (o : Host.Outcome State Fault Refusal) (r : Refusal) : Bool :=
  match o with
  | .next _ => false
  | .fault _ => false
  | .refused q => q == r

/-- How many events a state's trace has, and the sum of its holds. -/
def sizes (s : State) : Nat × Nat := (s.trace.length, holdSum s.trace)

/-! Well-formedness: the one check there is refuses the one ill-formed term (assumption log 6). -/

theorem test_wellFormed_refuses_probeFrame_one : (Instr.probeFrame 1).wellFormed = false := by
  decide

theorem test_wellFormed_accepts_neighbours :
    (Instr.probeFrame 0).wellFormed = true ∧ (Instr.probeFrame 2).wellFormed = true ∧
    (Instr.writeCode 0xFFFF).wellFormed = true ∧ (Instr.setCal 0xFFFF 0).wellFormed = true := by
  decide

/-! Decoding: each constructor from a word written out from R81 to R86 and R91 to R94. -/

theorem test_decode_probe :
    decodeCommand (0b0001#4 ++ 0b00000000000000000000000000000000#32) = .ok .probe := by decide

theorem test_decode_setCal :
    decodeCommand (0b0010#4 ++ 0b0000110011001101#16 ++ 0b0000001010001111#16) =
      .ok (.setCal 655 3277) := by decide

theorem test_decode_writeCode :
    decodeCommand (0b0011#4 ++ 0b0001001000110100#16 ++ 0b0000101010111100#16) =
      .ok (.writeCode 0xABC) := by decide

theorem test_decode_writeCurrent :
    decodeCommand (0b0100#4 ++ 0b11111111111110110000000000000000#32) =
      .ok (.writeCurrent 0xFFFB0000) := by decide

theorem test_decode_store :
    decodeCommand (0b0101#4 ++ 0b00000000000000000000000000000000#32) = .ok .store := by decide

theorem test_decode_start_and_stop :
    decodeCommand (0b0110#4 ++ 0#32) = .ok .start ∧
    decodeCommand (0b0111#4 ++ 0#32) = .ok .stop := by decide

/-- V16: `8_FFFFFE55` and `8_FFFFFF55`. -/
theorem test_decode_txByte :
    decodeCommand (0b1000#4 ++ 0b11111111111111111111111#23 ++ 0b0#1 ++ 0b01010101#8) =
      .ok (.txByte 0x55 false) ∧
    decodeCommand (0b1000#4 ++ 0b11111111111111111111111#23 ++ 0b1#1 ++ 0b01010101#8) =
      .ok (.txByte 0x55 true) := by decide

/-- V79, V80. -/
theorem test_decode_reserved :
    decodeCommand (0b0000#4 ++ 0#32) = .error (.reservedOpcode 0x0) ∧
    decodeCommand (0b1001#4 ++ 0#32) = .error (.reservedOpcode 0x9) ∧
    decodeCommand (0b1111#4 ++ 0#32) = .error (.reservedOpcode 0xF) := by decide

/-- R91, and the read direction that is never sent (R61). -/
theorem test_decode_addrByte :
    decodeWire [.byte 0b10110000#8] = .ok (.addrByte 0x58) ∧
    decodeWire [.byte 0b10110001#8] = .error .notAWirePattern := by decide

/-- R92. -/
theorem test_decode_probeFrame :
    decodeWire [.s, .byte 0b10110000#8, .p] = .ok (.probeFrame 0x58) ∧
    decodeWire [.s, .byte 0b10110001#8, .p] = .error .notAWirePattern := by decide

/-- R93: the low nibble of the low byte is always 0. -/
theorem test_decode_writeCodeFrame :
    decodeWire [.s, .byte 0b10110000#8, .byte 0b00000010#8, .byte 0b11000000#8,
      .byte 0b10101011#8, .p] = .ok (.writeCodeFrame 0x58 0x02 0xC 0xAB) ∧
    decodeWire [.s, .byte 0b10110000#8, .byte 0b00000010#8, .byte 0b11000001#8,
      .byte 0b10101011#8, .p] = .error .notAWirePattern := by decide

/-- R94. -/
theorem test_decode_storeFrames :
    decodeWire [.s, .byte 0b00000010#8, .p] = .ok .storeFrame1 ∧
    decodeWire [.s, .byte 0b00010000#8, .byte 0b00000011#8, .p] = .ok .storeFrame2 ∧
    decodeWire [.s, .byte 0b10110000#8, .byte 0, .byte 0, .byte 0, .byte 0, .byte 0, .byte 0,
      .byte 0, .byte 0, .p] = .ok (.storeFrame3 0x58) ∧
    decodeWire [.s, .byte 0b10110000#8, .byte 0, .byte 0, .byte 0, .byte 0, .byte 0, .byte 0,
      .byte 0, .p] = .error .notAWirePattern := by decide

/-- The table's words, numbered as the table numbers them (R98): the bits of a frame in wire order, the last being bit 0. -/
theorem test_tableWords :
    decodeTableWord 36 0x8000001A5 = some (.txByte 0xA5 true) ∧
    decodeTableWord 40 0x8000001A5 = some (.txByte 0xA5 true) ∧
    decodeTableWord 8 0xB0 = some (.probeFrame 0x58) ∧
    decodeTableWord 32 0xB002C0AB = some (.writeCodeFrame 0x58 0x02 0xC 0xAB) ∧
    decodeTableWord 16 0x1003 = some .storeFrame2 ∧
    decodeTableWord 72 0xB00000000000000000 = some (.storeFrame3 0x58) ∧
    decodeTableWord 36 0x900000000 = none := by decide

/-! The line driver (V1 to V9). -/

/-- V2 (a redundant set), V4 (the latch is kept), V6. -/
theorem test_micro_operations :
    ((MicroOp.setScl true).run none (fresh [])).2.trace = [.scl true] ∧
    ((MicroOp.sdaMode .input).run none (fresh [])).2.sdaO = true ∧
    ((MicroOp.sdaMode .input).run none (fresh [])).2.sdaOe = false ∧
    (MicroOp.readSda.run none (fresh [false, true])).1 = some false ∧
    ((MicroOp.hold Config.tStore).run none (fresh [])).2.trace = [.hold 10000000] := by decide

/-! The instructions. -/

/-- V10. -/
theorem test_start_events :
    seen (exec .start (fresh [])) State.trace =
      some [.sda true, .scl true, .hold 2000, .sda false, .hold 3000, .scl false] := by decide

/-- V10: STATUS `0x00000830`. -/
theorem test_start_status :
    seen (exec .start (fresh [])) State.statusWord = some 0x00000830 := by decide

/-- V11: STATUS `0x00000E50`. -/
theorem test_stop_events_and_status :
    seen (exec .stop (opened [])) State.trace =
      some [.sda false, .scl true, .hold 2000, .sda true, .hold 3000] ∧
    seen (exec .stop (opened [])) State.statusWord = some 0x00000E50 := by decide

/-- V17: STOP from the reset state. -/
theorem test_stop_refused :
    seen (exec .stop (fresh [])) State.trace = some [] ∧
    seen (exec .stop (fresh [])) State.statusWord = some 0x00000E90 := by decide

/-- V13: TXBYTE 0x00 without hold. -/
theorem test_txByte_no_hold :
    seen (exec (.txByte 0x00 true) (opened [false])) State.trace =
      some [.sda false, .scl true, .scl false, .sda false, .scl true, .scl false,
        .sda false, .scl true, .scl false, .sda false, .scl true, .scl false,
        .sda false, .scl true, .scl false, .sda false, .scl true, .scl false,
        .sda false, .scl true, .scl false, .sda false, .scl true, .scl false,
        .dir .input, .scl true, .sample false, .scl false, .dir .output] := by decide

/-- V14, V15: TXBYTE 0x01 with hold, not acknowledged: the latch keeps bit 0, nothing is aborted. -/
theorem test_txByte_not_acknowledged :
    seen (exec (.txByte 0x01 false) (opened [true]))
      (fun t => (t.result, t.sdaO, t.link, sizes t)) =
        some (1, true, .started, 37, 40000) := by decide

/-- V21, V22: STATUS `0x00000E42` and `0x00000E50`. -/
theorem test_probe_status :
    seen (exec .probe (fresh [false])) State.statusWord = some 0x00000E42 ∧
    seen (exec .probe (fresh [true])) State.statusWord = some 0x00000E50 ∧
    seen (exec .probe (fresh [true])) State.result = some 2 := by decide

/-- V23: READY stays after a failing PROBE. -/
theorem test_probe_keeps_ready :
    seen (exec .probe { fresh [true] with ready := true }) State.ready = some true := by decide

set_option maxRecDepth 8000 in
/-- V25 and E6: the bytes on the wire, 159 events, STATUS `0x00000E48`. -/
theorem test_writeCode_bytes :
    seen (exec (.writeCode 0x0ABC) (fresh [false, false, false, false]))
      (fun t => ((Wire.read ⟨true, true, true, none⟩ t.trace).2, sizes t, t.statusWord)) =
        some (frameMarks [(0xB0, false), (0x02, false), (0xC0, false), (0xAB, false)],
          (159, 170000), 0x00000E48) := by decide

/-- V26: 0xFFFF with only the address byte acknowledged. -/
theorem test_writeCode_masks :
    seen (exec (.writeCode 0xFFFF) (fresh [false, true, true, true]))
      (fun t => (t.outCode, t.result, t.ack, t.errSeq)) =
        some (0xFFF, 102375, true, false) := by decide

/-- V63: 12 mA with the default pair set. -/
theorem test_writeCurrent :
    seen (exec (.writeCurrent 0x000C0000)
      { calibrated 655 3277 with samples := [false, false, false, false] })
      (fun t => (t.outCode, t.result)) = some (0x7AE, 1966) := by decide

/-- V40 to V58: columns of the conversion table, at the ends of the ranges. -/
theorem test_toCode_table :
    (fresh []).toCode 0x80000000 = 0 ∧ (fresh []).toCode 0x0003FFFF = 655 ∧
    (fresh []).toCode 0x00048000 = 737 ∧ (fresh []).toCode 0x0018FFFF = 4094 ∧
    (fresh []).toCode 0x7FFFFFFF = 4095 ∧
    (calibrated 0 4095).toCode 0x0003FFFF = 655 ∧ (calibrated 0 4095).toCode 0x00040000 = 0 ∧
    (calibrated 0 4095).toCode 0x0013FFFF = 4094 ∧
    (calibrated 0 4095).toCode 0x00140001 = 3276 ∧
    (calibrated 1000 1001).toCode 0x0013FFFF = 1000 := by decide

set_option maxRecDepth 8000 in
/-- V28: 414 events, 10 190 000 ns, STATUS `0x00000E40`. -/
theorem test_store_sizes :
    seen (exec .store (fresh (List.replicate 12 false))) (fun t => (sizes t, t.statusWord)) =
      some ((414, 10190000), 0x00000E40) := by decide

/-- V30: with a transaction open nothing is sent. -/
theorem test_store_refused :
    seen (exec .store (opened [])) (fun t => (t.errSeq, t.trace.length)) =
      some (true, 0) := by decide

/-- V60: the last accepted and the first rejected pairs. -/
theorem test_setCal_bounds :
    seen (exec (.setCal 4094 4095) (fresh [])) (fun t => (t.calLo, t.calHi, t.calEn)) =
      some (4094, 4095, true) ∧
    seen (exec (.setCal 4095 4096) (fresh [])) (fun t => (t.calLo, t.calHi, t.calEn)) =
      some (655, 3277, false) ∧
    seen (exec (.setCal 100 100) (fresh [])) State.calEn = some false ∧
    seen (exec (.setCal 5000 6000) (fresh [])) State.calEn = some false := by decide

/-- V61: a rejection after a success leaves the earlier pair in force. -/
theorem test_setCal_rejection_keeps :
    seen (exec (.setCal 100 50) (calibrated 1000 3000)) (fun t => (t.calLo, t.calHi, t.calEn)) =
      some (1000, 3000, true) := by decide

/-- R91: the byte of address 0x7F, `0xFE`. -/
theorem test_addrByte_bits :
    seen (exec (.addrByte 0x7F) (opened [false]))
      (fun t => (Wire.read ⟨false, false, true, none⟩ t.trace).2) =
        some (cellMarks 0xFE false) := by decide

/-- R92: one byte, no status. -/
theorem test_probeFrame :
    seen (exec (.probeFrame 0x58) (fresh [true])) (fun t => (t.result, t.ack, sizes t)) =
      some (0, true, 48, 50000) := by decide

set_option maxRecDepth 8000 in
/-- R93: no `OUT_CODE`, no `RESULT`. -/
theorem test_writeCodeFrame :
    seen (exec (.writeCodeFrame 0x58 0x02 0xC 0xAB) (fresh [false, false, false, false]))
      (fun t => (t.outValid, t.result, sizes t)) = some (false, 0, 159, 170000) := by decide

set_option maxRecDepth 8000 in
/-- R94 and R153: transaction 1 has 48 events, transaction 2 85, transaction 3 280. -/
theorem test_storeFrames :
    seen (exec .storeFrame1 (fresh [false])) sizes = some (48, 50000) ∧
    seen (exec .storeFrame2 (fresh [false, false])) sizes = some (85, 90000) ∧
    seen (exec (.storeFrame3 0x58) (fresh (List.replicate 9 false))) sizes =
      some (280, 50000) := by decide

/-! The step, the host port and reset. -/

/-- V79: STATUS `0x00000F10` after a reserved opcode from reset. -/
theorem test_step_reserved :
    seen (step (withHost (fresh []) [.call 0x000000000])) State.statusWord =
      some 0x00000F10 := by decide

/-- A read in the middle of a command sees `BUSY = 1` (R35); STATUS of a reset state is `0x00000E10`. -/
theorem test_step_read_while_busy :
    seen (step (withHost starting [.read 0])) (fun t => (t.reads, t.busy)) =
      some ([⟨0, 0x00000E11⟩], true) := by decide

/-- R35: CAL and CONFIG right after reset. -/
theorem test_step_read_words :
    (fresh []).calWord = 0x0CCD028F ∧ (fresh []).configWord = 0x00000258 ∧
    { fresh [] with outValid := true, outCode := 0xABC }.outWord = 0x00000ABC := by decide

/-- R211: reset in the middle of a transaction. -/
theorem test_step_reset_while_busy :
    seen (step (withHost (accept (.txByte 0 false) (opened [])) [.reset 0x01 0x02]))
      (fun t => (t.busy, t.sclO, t.trace, t.devAddr)) = some (false, true, [], 0x01) := by decide

/-- R26, R34: a posted START needs six steps after its acceptance, and `LINK` is still IDLE before the last. -/
theorem test_post_start :
    seen (Sys2Proof.core.run 6 (withHost (fresh []) [.post 0x600000000]))
      (fun t => (t.busy, t.link)) = some (true, .idle) ∧
    seen (Sys2Proof.core.run 7 (withHost (fresh []) [.post 0x600000000]))
      (fun t => (t.busy, t.link)) = some (false, .started) := by decide

theorem test_stops_by_name :
    stopsWith (step (withHost (fresh []) [.read 5])) (.noSuchStatusWord 5) = true ∧
    refusedWith (step (withHost (fresh []) [.frame []])) .notAWirePattern = true := by decide

/-! Witnesses: the hypotheses of each statement are met, clause by clause. -/

theorem witness_DecodeEncodeRoundTrip :
    (Instr.writeCodeFrame 0x7F 0xFF 0xF 0xFF).wellFormed = true ∧
    (Instr.probeFrame 0).wellFormed = true ∧ (Instr.probeFrame 0x7F).wellFormed = true ∧
    (Instr.txByte 0xFF true).wellFormed = true := by decide

theorem witness_DecodeReadsContiguousFields :
    (0x1FFFFFFFF : CommandWord).toNat / 2 ^ 32 = 1 ∧
    (0x2FFFF0000 : CommandWord).toNat / 2 ^ 32 = 2 ∧
    (0x3FFFFFFFF : CommandWord).toNat / 2 ^ 32 = 3 ∧
    (0x480000000 : CommandWord).toNat / 2 ^ 32 = 4 ∧
    (0x5FFFFFFFF : CommandWord).toNat / 2 ^ 32 = 5 ∧
    (0x600000000 : CommandWord).toNat / 2 ^ 32 = 6 ∧
    (0x7FFFFFFFF : CommandWord).toNat / 2 ^ 32 = 7 ∧
    (0x8FFFFFFFF : CommandWord).toNat / 2 ^ 32 = 8 := by decide

theorem witness_ReservedOpcodeOnlySetsErrOp :
    (withHost (fresh []) [.call 0x0FFFFFFFF]).busy = false ∧
    (withHost (fresh []) [.call 0x0FFFFFFFF]).host = .call 0x0FFFFFFFF :: [] ∧
    (0x0FFFFFFFF : CommandWord).toNat / 2 ^ 32 = 0 ∧
    (withHost (opened []) [.post 0x900000000]).busy = false ∧
    (withHost (opened []) [.post 0x900000000]).host = .post 0x900000000 :: [] ∧
    9 ≤ (0x900000000 : CommandWord).toNat / 2 ^ 32 ∧
    9 ≤ (0xFFFFFFFFF : CommandWord).toNat / 2 ^ 32 ∧
    1 ≤ (0x100000000 : CommandWord).toNat / 2 ^ 32 ∧
    (0x8FFFFFFFF : CommandWord).toNat / 2 ^ 32 ≤ 8 := by decide

theorem witness_TableWordIsWhatTheStepRuns :
    decodeTableWord 36 0x100000000 = some .probe ∧
    decodeTableWord 8 0x02 = some .storeFrame1 ∧
    decodeTableWord 72 0 = some (.storeFrame3 0) := by decide

theorem witness_StepRunsTheDecodedInstruction :
    (withHost (fresh []) [.call 0x8000001A5]).busy = false ∧
    (withHost (fresh []) [.call 0x8000001A5]).host = .call 0x8000001A5 :: [] ∧
    decode (.command 0x8000001A5) = .ok (.txByte 0xA5 true) ∧
    (withHost (fresh []) [.frame [.byte 0xB0]]).busy = false ∧
    (withHost (fresh []) [.frame [.byte 0xB0]]).host = .frame [.byte 0xB0] :: [] ∧
    decode (.wire [.byte 0xB0]) = .ok (.addrByte 0x58) := by decide

theorem witness_CommandHeldOffWhileBusy :
    (withHost starting [.call 0x700000000]).busy = true ∧
    (withHost starting [.call 0x700000000]).host = .call 0x700000000 :: [] ∧
    (withHost starting [.post 0x700000000, .wait]).busy = true ∧
    (withHost starting [.post 0x700000000, .wait]).host = .post 0x700000000 :: [.wait] := by
  decide

/-- The longest command, and SET_CAL, which has no micro-operation (log 8). -/
theorem witness_PostedCommandCompletesAsCalled :
    (withHost (fresh []) [.post 0x500000000]).busy = false ∧
    (withHost (fresh []) [.post 0x500000000]).host = [.post 0x500000000] ∧
    decode (.command 0x500000000) = .ok .store ∧
    (withHost (fresh []) [.post 0x20FFF0FFE]).busy = false ∧
    (withHost (fresh []) [.post 0x20FFF0FFE]).host = [.post 0x20FFF0FFE] ∧
    decode (.command 0x20FFF0FFE) = .ok (.setCal 4094 4095) := by decide

/-- START emits six events, so the clause on `BUSY` speaks of `m` from 0, the acceptance alone, to 5, one micro-operation left. -/
theorem witness_PostedCommandIsBusy :
    (withHost (fresh []) [.post 0x600000000]).busy = false ∧
    decode (.command 0x600000000) = .ok .start ∧
    seen (exec .start (fresh [])) (fun t => t.trace.length) = some 6 ∧
    seen (Sys2Proof.core.run 1 (withHost (fresh []) [.post 0x600000000]))
      (fun u => (u.busy, u.seq.map Progress.done, u.trace)) = some (true, some 0, []) ∧
    seen (Sys2Proof.core.run 6 (withHost (fresh []) [.post 0x600000000]))
      (fun u => (u.busy, u.seq.map Progress.done, u.trace.length)) = some (true, some 5, 5) := by
  decide

theorem witness_BusyStepEmitsOneEvent :
    starting.inv = true ∧
    starting.seq = some ⟨.start, 0, startActs, none⟩ ∧
    starting.advance.seq = some ⟨.start, 1, startActs.drop 1, none⟩ := by decide

theorem witness_CommandsAreBounded :
    ∃ t, exec .start (fresh []) = .next t ∧ t.trace.length = 6 := ⟨_, rfl, rfl⟩

theorem witness_IdleStepChangesNothing :
    (closed []).busy = false ∧ (closed []).host = [] := by decide

theorem witness_PinsCarryTheLineRegisters :
    (opened []).sclO = false ∧ (fresh []).sclO = true ∧
    (opened []).sdaOe = true ∧ (opened []).sdaO = false ∧
    (fresh []).sdaOe = true ∧ (fresh []).sdaO = true ∧
    ((opened []).putSdaOe false).sdaOe = false := by decide

theorem witness_StartCompletes :
    (fresh []).busy = false ∧ (fresh []).link ≠ .started ∧
    (closed []).busy = false ∧ (closed []).link ≠ .started := by decide

theorem witness_StopCompletes :
    (opened []).busy = false ∧ (opened []).link = .started := by decide

theorem witness_TxByteCompletes :
    (opened [true]).busy = false ∧ (opened [true]).link = .started := by decide

theorem witness_WrongLinkStateOnlySetsErrSeq :
    (opened []).busy = false ∧ (opened []).link = .started ∧
    (fresh []).busy = false ∧ (fresh []).link ≠ .started ∧
    (closed []).busy = false ∧ (closed []).link ≠ .started := by decide

theorem witness_LinkTransitionTable :
    (fresh []).busy = false ∧ (fresh []).link = .idle ∧
    (opened []).busy = false ∧ (opened []).link = .started ∧
    (closed []).busy = false ∧ (closed []).link = .stopped ∧
    (State.advance^[5] (accept .start (fresh []))).busy = true ∧
    (State.advance^[4] (accept .stop (opened []))).busy = true ∧
    (State.advance^[2] (accept (.txByte 0xFF true) (opened []))).busy = true := by decide

theorem witness_ProbeCompletes :
    (fresh [false]).busy = false ∧ (fresh [false]).link ≠ .started := by decide

theorem witness_WriteCodeCompletes :
    (closed [true]).busy = false ∧ (closed [true]).link ≠ .started := by decide

theorem witness_StoreCompletes :
    (fresh []).busy = false ∧ (fresh []).link ≠ .started := by decide

theorem witness_DeviceCommandRefusedWithTransactionOpen :
    (opened []).busy = false ∧ (opened []).link = .started := by decide

theorem witness_WriteCodeReturnsTheCurrent :
    (fresh []).busy = false ∧ (fresh []).link ≠ .started ∧
    (0xFFFF : BitVec 16).toNat % 4096 = 4095 := by decide

theorem witness_ClampedCurrentsShareTheirCode :
    (0xFFFFFFFF : Word32).toInt < 0 ∧ 1638400 < (0x00190001 : Word32).toInt := by decide

theorem witness_IntegerFormAndItsWidths :
    (1310720 : Int) = max 0 (min (0x00140000 : Word32).toInt 1638400) ∧
    (655 : Int) = (fresh []).calLo.toNat ∧ (3277 : Int) = (fresh []).calHi.toNat ∧
    (655 : Int) < 3277 ∧ (262144 : Int) ≤ 1310720 ∧ (1310720 : Int) ≤ 1310720 := by decide

theorem witness_ConversionEndpoints :
    (calibrated 0 4095).calEn = true ∧ (calibrated 0 4095).calOk = true ∧
    262144 ≤ (0x00040000 : Word32).toInt ∧ (0x00040000 : Word32).toInt ≤ 1310720 := by decide

theorem witness_ConversionMonotoneOnEachBranch :
    (0x80000000 : Word32).toInt ≤ (0x7FFFFFFF : Word32).toInt ∧ (fresh []).calEn = false ∧
    (0x0003FFFE : Word32).toInt ≤ (0x0003FFFF : Word32).toInt ∧
    (0x0003FFFF : Word32).toInt < 262144 ∧
    (0x00140001 : Word32).toInt ≤ (0x00190001 : Word32).toInt ∧
    1310720 < (0x00140001 : Word32).toInt ∧
    (0x00040000 : Word32).toInt ≤ (0x00140000 : Word32).toInt ∧
    (calibrated 0 1).calEn = true ∧ (calibrated 0 1).calOk = true ∧
    262144 ≤ (0x00040000 : Word32).toInt ∧ (0x00140000 : Word32).toInt ≤ 1310720 := by decide

theorem witness_CalibratedCodeFallsPastTwenty :
    (calibrated 655 3277).calEn = true ∧ (calibrated 655 3277).calLo = 655 ∧
    (calibrated 655 3277).calHi = 3277 := by decide

theorem witness_SetCalCompletes :
    (opened []).busy = false ∧
    ((4094 : BitVec 16).toNat < (4095 : BitVec 16).toNat ∧ (4095 : BitVec 16).toNat ≤ 4095) ∧
    ¬((4095 : BitVec 16).toNat < (4096 : BitVec 16).toNat ∧
      (4096 : BitVec 16).toNat ≤ 4095) := by decide

theorem witness_WriteCurrentCompletes :
    (calibrated 655 3277).busy = false ∧ (calibrated 655 3277).link ≠ .started ∧
    (3277 : Code) = (calibrated 655 3277).toCode 0x00140000 := by decide

theorem witness_AddrByteCompletes :
    (opened []).busy = false ∧ (opened []).link = .started ∧
    (fresh []).busy = false ∧ (fresh []).link ≠ .started := by decide

theorem witness_FramesComplete :
    (closed []).busy = false ∧ (closed []).link ≠ .started := by decide

theorem witness_FramesRefusedWithTransactionOpen :
    (opened []).busy = false ∧ (opened []).link = .started := by decide

theorem witness_CommandsSendTheirFrames :
    (fresh [true]).busy = false ∧ (fresh [true]).link ≠ .started := by decide

theorem witness_WriteCodeIsItsLinkCommands :
    (fresh [false, true]).busy = false ∧ (fresh [false, true]).link ≠ .started := by decide

theorem witness_LinkOperationsReadOffTheLines :
    (fresh []).busy = false ∧ (fresh []).linesOk = true ∧ (fresh []).link ≠ .started ∧
    (opened []).busy = false ∧ (opened []).linesOk = true ∧ (opened []).link = .started := by
  decide

theorem witness_FramesReadOffTheLines :
    (closed []).busy = false ∧ (closed []).linesOk = true ∧ (closed []).link ≠ .started ∧
    (0xB0 : Byte) = (closed []).devAddr ++ 0#1 ∧ (0x02 : Byte) = (closed []).regSel ∧
    (0xC0 : Byte) = (0x0ABC : BitVec 16).extractLsb' 0 4 ++ 0#4 ∧
    (0xAB : Byte) = (0x0ABC : BitVec 16).extractLsb' 4 8 := by decide

theorem witness_NoInstructionViolatesTheLines :
    (fresh []).busy = false ∧ (fresh []).linesOk = true ∧
    ∃ t, exec .start (fresh []) = .next t ∧ t.link = .started :=
  ⟨rfl, by decide, _, rfl, rfl⟩

/-- Each of the nine clauses. -/
theorem witness_EventsPulsesAndHolds :
    (fresh []).busy = false ∧ (fresh []).linesOk = true ∧ (fresh []).link ≠ .started ∧
    (opened []).busy = false ∧ (opened []).linesOk = true ∧ (opened []).link = .started ∧
    (∃ b, Instr.txByte 0xFF false = .txByte b false) ∧
    (∃ b, Instr.txByte 0x00 true = .txByte b true) ∧
    (∃ c, Instr.writeCode 0xFFFF = .writeCode c) ∧
    (∃ x, Instr.writeCurrent 0x80000000 = .writeCurrent x) ∧
    (∃ lo hi, Instr.setCal 1 0 = .setCal lo hi) :=
  ⟨rfl, by decide, by decide, rfl, by decide, rfl, ⟨_, rfl⟩, ⟨_, rfl⟩, ⟨_, rfl⟩, ⟨_, rfl⟩,
    ⟨_, _, rfl⟩⟩

theorem witness_TraceCheckerCounts :
    (fresh []).busy = false ∧ (fresh []).linesOk = true ∧ (fresh []).link ≠ .started ∧
    (opened []).busy = false ∧ (opened []).linesOk = true ∧ (opened []).link = .started := by
  decide

/-- Each of the five words, four of them in the middle of a command; `OUT_CODE` where it has been written. -/
theorem witness_StatusReadReturnsTheWord :
    (withHost starting [.read 0]).host = .read 0 :: [] ∧
    (withHost starting [.read 1]).host = .read 1 :: [] ∧
    (withHost starting [.read 2]).host = .read 2 :: [] ∧
    (withHost { fresh [] with outValid := true } [.read 3]).host = .read 3 :: [] ∧
    (withHost { fresh [] with outValid := true } [.read 3]).outValid = true ∧
    (withHost starting [.read 4]).host = .read 4 :: [] ∧ 4 ≤ 4 := by decide

theorem witness_ReadOfMissingWordStops :
    (withHost (fresh []) [.read 5]).host = .read 5 :: [] ∧ 5 ≤ 5 := by decide

theorem witness_ResetRestoresEveryRegister :
    (withHost starting [.reset 0x7F 0xFF]).host = .reset 0x7F 0xFF :: [] ∧
    (withHost (fresh []) [.reset 0 0, .wait]).host = .reset 0 0 :: [.wait] := by decide

/-- An idle state, a command presented, a command in progress, a reset in the middle of one. -/
theorem witness_StepKeepsTheInvariant :
    (opened []).inv = true ∧ starting.inv = true ∧
    (withHost (fresh []) [.post 0x600000000]).inv = true ∧
    (∃ t, step (withHost (fresh []) [.post 0x600000000]) = .next t ∧ t.busy = true) ∧
    (∃ t, step starting = .next t ∧ t.busy = true) ∧
    (∃ t, step (withHost starting [.reset 0 0]) = .next t ∧ t.busy = false) :=
  ⟨by decide, by decide, by decide, ⟨_, rfl, rfl⟩, ⟨_, rfl, rfl⟩, ⟨_, rfl, rfl⟩⟩

theorem witness_QuietStateFromTheInvariant :
    (fresh []).inv = true ∧ (fresh []).busy = false ∧ (fresh []).link = .idle ∧
    (opened []).inv = true ∧ (opened []).busy = false ∧ (opened []).link = .started ∧
    (closed []).inv = true ∧ (closed []).busy = false ∧ (closed []).link = .stopped ∧
    { fresh [] with outValid := true, outCode := 4095 }.inv = true ∧
    { fresh [] with outValid := true, outCode := 4095 }.outValid = true := by decide

theorem witness_CalibrationWrittenOnlyBySetCal :
    (∃ t, exec .start (fresh []) = .next t) ∧ ∀ lo hi, Instr.start ≠ .setCal lo hi :=
  ⟨⟨_, rfl⟩, fun _ _ h => by cases h⟩

theorem witness_CalibratedModeEndsOnlyAtReset :
    (∃ t, step (withHost (calibrated 0 1) [.post 0x600000000]) = .next t) ∧
    (withHost (calibrated 0 1) [.post 0x600000000]).calEn = true ∧
    ∀ d r rest, (withHost (calibrated 0 1) [.post 0x600000000]).host ≠ .reset d r :: rest :=
  ⟨⟨_, rfl⟩, rfl, fun _ _ _ h => by cases h⟩

theorem witness_OutputWrittenOnlyByWrites :
    (∃ t, exec .start (fresh []) = .next t) ∧ (∀ code, Instr.start ≠ .writeCode code) ∧
    ∀ x, Instr.start ≠ .writeCurrent x :=
  ⟨⟨_, rfl⟩, (fun _ h => by cases h), (fun _ h => by cases h)⟩

theorem witness_ReadyWrittenOnlyByProbe :
    (∃ t, exec .start (fresh []) = .next t) ∧ Instr.start ≠ .probe ∧
    (∃ t, exec .probe { opened [] with ready := true } = .next t) ∧
    { opened [] with ready := true }.ready = true :=
  ⟨⟨_, rfl⟩, by decide, ⟨_, rfl⟩, rfl⟩

/-- Void commands, and refused ones of those that return a value, the flag still clear or already set. -/
theorem witness_ResultKeptByVoidAndRefusedCommands :
    (∃ t, exec .start (fresh []) = .next t) ∧ (∃ t, exec .stop (opened []) = .next t) ∧
    (∃ t, exec (.setCal 1 0) (fresh []) = .next t) ∧
    (∃ t, exec .store (opened []) = .next t) ∧
    (∃ t, exec .probe { opened [] with errSeq := true } = .next t) ∧
    (∃ t, exec (.writeCode 0) { opened [] with errSeq := true } = .next t) ∧
    (∃ t, exec (.writeCurrent 0) { opened [] with errSeq := true } = .next t) ∧
    { opened [] with errSeq := true }.link = .started ∧
    (∃ t, exec (.txByte 0 false) { closed [] with errSeq := true } = .next t) ∧
    { closed [] with errSeq := true }.link ≠ .started ∧
    (∃ t, exec (.txByte 0 false) (fresh []) = .next t ∧ (fresh []).errSeq = false ∧
      t.errSeq = true) :=
  ⟨⟨_, rfl⟩, ⟨_, rfl⟩, ⟨_, rfl⟩, ⟨_, rfl⟩, ⟨_, rfl⟩, ⟨_, rfl⟩, ⟨_, rfl⟩, rfl, ⟨_, rfl⟩, by decide,
    ⟨_, rfl, rfl, rfl⟩⟩

theorem witness_ErrorFlagsStickUntilReset :
    (∃ t, step (withHost { fresh [] with errSeq := true, errOp := true } [.wait]) =
      .next t) ∧
    (∀ d r rest, (withHost { fresh [] with errSeq := true, errOp := true } [.wait]).host ≠
      .reset d r :: rest) ∧
    { fresh [] with errSeq := true, errOp := true }.errSeq = true ∧
    { fresh [] with errSeq := true, errOp := true }.errOp = true :=
  ⟨⟨_, rfl⟩, (fun _ _ _ h => by cases h), rfl, rfl⟩

theorem witness_ConfigurationConstantUntilReset :
    (∃ t, step (withHost starting [.read 4]) = .next t) ∧
    ∀ d r rest, (withHost starting [.read 4]).host ≠ .reset d r :: rest :=
  ⟨⟨_, rfl⟩, fun _ _ _ h => by cases h⟩

theorem witness_StepsOnlyAppendToTheTrace :
    (∃ t, step starting = .next t ∧ t.trace = [.sda true]) ∧
    ∀ d r rest, starting.host ≠ .reset d r :: rest :=
  ⟨⟨_, rfl, rfl⟩, fun _ _ _ h => by cases h⟩

theorem witness_TracesConcatenate :
    ∃ t, exec .stop { opened [] with trace := startEvents } = .next t ∧
      t.trace = startEvents ++ stopEvents := ⟨_, rfl, rfl⟩

/-- PROBE answered in two ways, and an instruction that meets the last two clauses. -/
theorem witness_AcknowledgmentsChangeNoCourse :
    (∃ t, exec .probe (fresh [false]) = .next t ∧ t.result = 0) ∧
    (∃ u, exec .probe { fresh [false] with samples := [true], drawn := 7 } = .next u ∧
      u.result = 2) ∧
    (∀ b nh, Instr.store ≠ .txByte b nh) ∧ Instr.store ≠ .probe :=
  ⟨⟨_, rfl, rfl⟩, ⟨_, rfl, rfl⟩, (fun _ _ h => by cases h), by decide⟩

end Sys2Proof.Tests
end

/-! PROOF. What START, STOP, TXBYTE and every other instruction are read as on the lines (R39, R40, R90, R95). -/

namespace Sys2Proof.Machine

/-! What is read off the lines of a run (R39, R90). -/

/-- A run from `s` to `t` is read off the lines as `ms`, and leaves the reader at the levels of `t`. -/
def State.ReadsAs (s t : State) (ms : List WireMark) : Prop :=
  ∃ es, t.trace = s.trace ++ es ∧ s.wire.read es = (t.wire, ms)

theorem State.ReadsAs.read_newEvents {s t : State} {ms : List WireMark} (h : s.ReadsAs t ms) :
    s.wire.read (t.newEvents s) = (t.wire, ms) := by
  obtain ⟨es, htrace, hread⟩ := h
  rw [State.newEvents_eq s t es htrace, hread]

theorem State.ReadsAs.trans {s t u : State} {ms ns : List WireMark} (h : s.ReadsAs t ms)
    (h' : t.ReadsAs u ns) : s.ReadsAs u (ms ++ ns) := by
  obtain ⟨es, ht, hr⟩ := h
  obtain ⟨fs, ht', hr'⟩ := h'
  refine ⟨es ++ fs, ?_, ?_⟩
  · rw [ht', ht, List.append_assoc]
  · rw [Wire.read_append, hr, hr']

/-- A run that moves no line and emits nothing is read as nothing. -/
theorem State.readsAs_nil {s t : State} (htrace : t.trace = s.trace) (hwire : t.wire = s.wire) :
    s.ReadsAs t [] :=
  ⟨[], by rw [htrace, List.append_nil], by rw [hwire]; rfl⟩

/-- R40 (a) and (b), with a transaction open. -/
theorem State.linesOk_of_started {s : State} (hl : s.link = .started) :
    s.linesOk = true ↔ s.sdaOe = true ∧ s.sclO = false := by
  simp [State.linesOk, hl]

/-- R40 (a) and (c), with no transaction open. -/
theorem State.linesOk_of_not_started {s : State} (hl : s.link ≠ .started) :
    s.linesOk = true ↔ s.sdaOe = true ∧ s.sclO = true ∧ s.sdaO = true := by
  simp [State.linesOk, hl]

/-- The invariant of the lines reads the line registers and `LINK` alone. -/
theorem State.linesOk_congr {s t : State} (hwire : t.wire = s.wire) (hlink : t.link = s.link) :
    t.linesOk = s.linesOk := by
  simp only [State.wire, Wire.mk.injEq] at hwire
  obtain ⟨hscl, hsda, hoe, -⟩ := hwire
  simp only [State.linesOk, hscl, hsda, hoe, hlink]

theorem readsAs_startActs (a : Option Bool) {s : State} (h : s.linesOk = true)
    (hl : s.link ≠ .started) : s.ReadsAs (runActs startActs a s).2 [.start] := by
  have hoe := ((State.linesOk_of_not_started hl).1 h).1
  refine ⟨startEvents, by rw [runActs_startActs], ?_⟩
  rw [s.wire_closed h hl, Wire.read_startEvents, runActs_startActs, State.wire, hoe]

theorem readsAs_stopActs (a : Option Bool) {s : State} (h : s.linesOk = true)
    (hl : s.link = .started) : s.ReadsAs (runActs stopActs a s).2 [.stop] := by
  have hoe := ((State.linesOk_of_started hl).1 h).1
  refine ⟨stopEvents, by rw [runActs_stopActs], ?_⟩
  rw [s.wire_open h hl, Wire.read_stopEvents, runActs_stopActs, State.wire, hoe]

theorem readsAs_txByteActs (b : Byte) (hold : Bool) (a : Option Bool) {s : State}
    (h : s.linesOk = true) (hl : s.link = .started) :
    s.ReadsAs (runActs (txByteActs b hold) a s).2 (cellMarks b (s.sampleAt 0)) := by
  refine ⟨byteEvents b hold (s.sampleAt 0), by rw [runActs_txByteActs], ?_⟩
  rw [s.wire_open h hl, Wire.read_byteEvents, runActs_txByteActs, State.wire]

/-- A register write other than that of `LINK` emits nothing and leaves the lines and `LINK`. -/
theorem Update.run_lines (u : Update) (hu : ∀ l, u ≠ .setLink l) (a : Option Bool) (s : State) :
    (u.run a s).trace = s.trace ∧ (u.run a s).wire = s.wire ∧ (u.run a s).link = s.link := by
  cases u with
  | setLink l => exact absurd rfl (hu l)
  | probeStatus => cases hack : s.ack <;> simp [Update.run, hack, State.wire]
  | ackFromSample => exact ⟨rfl, rfl, rfl⟩
  | setOut c => exact ⟨rfl, rfl, rfl⟩
  | setResult v => exact ⟨rfl, rfl, rfl⟩
  | resultFromAck => exact ⟨rfl, rfl, rfl⟩
  | setCal lo hi => exact ⟨rfl, rfl, rfl⟩

/-- Settles O39: the reader of the lines on each of the three event lists. -/
theorem linkOperationsReadOffTheLines : Obligations.LinkOperationsReadOffTheLines := by
  intro s hb h
  have hs := s.busy_eq_false.1 hb
  refine ⟨fun hl => ?_, fun hl => ?_, fun b nh hl => ?_⟩
  · exact ⟨_, complete_issueClosed _ _ _ hs hl, (readsAs_startActs none h hl).read_newEvents⟩
  · exact ⟨_, complete_issueOpen _ _ _ hs hl, (readsAs_stopActs none h hl).read_newEvents⟩
  · refine ⟨_, complete_issueOpen _ _ _ hs hl, ?_⟩
    have hbyte := readsAs_txByteActs b (!nh) none h hl
    rw [runActs_append, runActs_txByteActs]
    rw [runActs_txByteActs] at hbyte
    exact State.ReadsAs.read_newEvents hbyte

/-! Runs the lines of which stay as R40 and R95 say. -/

/-- Whether a transaction is open, as a count. -/
def State.openCount (s : State) : Nat := if s.link = .started then 1 else 0

/-- A run that leaves the lines as R40 says, reads without a violation, and answers each start condition by a stop condition but for
a transaction open before or after. -/
def State.CleanRun (s t : State) : Prop :=
  t.linesOk = true ∧ ∃ ms, s.ReadsAs t ms ∧ WireMark.violation ∉ ms ∧
    ms.count .start + s.openCount = ms.count .stop + t.openCount

theorem State.CleanRun.trans {s t u : State} (h : s.CleanRun t) (h' : t.CleanRun u) :
    s.CleanRun u := by
  obtain ⟨-, ms, hr, hv, hc⟩ := h
  obtain ⟨hok, ns, hr', hv', hc'⟩ := h'
  refine ⟨hok, ms ++ ns, hr.trans hr', ?_, ?_⟩
  · rw [List.mem_append, not_or]
    exact ⟨hv, hv'⟩
  · rw [List.count_append, List.count_append]
    omega

/-- A run that emits nothing and leaves the lines and `LINK` is clean. -/
theorem State.cleanRun_of_silent {s t : State} (h : s.linesOk = true) (htrace : t.trace = s.trace)
    (hwire : t.wire = s.wire) (hlink : t.link = s.link) : s.CleanRun t :=
  ⟨by rw [State.linesOk_congr hwire hlink, h], [], State.readsAs_nil htrace hwire, by simp,
    by simp [State.openCount, hlink]⟩

/-- Lines of pseudocode that run cleanly from every quiet state in which a transaction is open as `o` says, and leave one open as `o'`
says. -/
def CleanActs (o o' : Bool) (acts : List Act) : Prop :=
  ∀ (a : Option Bool) (s : State), s.linesOk = true → (s.link = .started ↔ o = true) →
    ((runActs acts a s).2.link = .started ↔ o' = true) ∧ s.CleanRun (runActs acts a s).2

theorem CleanActs.append {o m o' : Bool} {xs ys : List Act} (hx : CleanActs o m xs)
    (hy : CleanActs m o' ys) : CleanActs o o' (xs ++ ys) := by
  intro a s h hl
  obtain ⟨hl1, hrun⟩ := hx a s h hl
  obtain ⟨hl2, hrun'⟩ := hy (runActs xs a s).1 _ hrun.1 hl1
  rw [runActs_append]
  exact ⟨hl2, hrun.trans hrun'⟩

theorem cleanActs_nil (o : Bool) : CleanActs o o [] :=
  fun _ _ h hl => ⟨hl, State.cleanRun_of_silent h rfl rfl rfl⟩

theorem cleanActs_upd (o : Bool) (u : Update) (hu : ∀ l, u ≠ .setLink l) :
    CleanActs o o [.upd u] := by
  intro a s h hl
  obtain ⟨htrace, hwire, hlink⟩ := u.run_lines hu a s
  refine ⟨?_, State.cleanRun_of_silent h htrace hwire hlink⟩
  rw [← hl, ← hlink]
  rfl

theorem cleanActs_hold (o : Bool) (d : Nat) : CleanActs o o [.op (.hold d)] :=
  fun _ _ h hl => ⟨hl, h, [], ⟨[.hold d], rfl, rfl⟩, List.not_mem_nil, rfl⟩

theorem cleanActs_startActs : CleanActs false true startActs := by
  intro a s h hl
  have hl : s.link ≠ .started := by simpa using hl
  have hoe := ((State.linesOk_of_not_started hl).1 h).1
  refine ⟨by simp [runActs_startActs], ?_, [.start], readsAs_startActs a h hl, by simp, ?_⟩
  · simp [runActs_startActs, State.linesOk, hoe]
  · simp [runActs_startActs, State.openCount, hl]

theorem cleanActs_stopActs : CleanActs true false stopActs := by
  intro a s h hl
  have hl : s.link = .started := by simpa using hl
  have hoe := ((State.linesOk_of_started hl).1 h).1
  refine ⟨by simp [runActs_stopActs], ?_, [.stop], readsAs_stopActs a h hl, by simp, ?_⟩
  · simp [runActs_stopActs, State.linesOk, hoe]
  · simp [runActs_stopActs, State.openCount, hl]

theorem cleanActs_txByteActs (b : Byte) (hold : Bool) :
    CleanActs true true (txByteActs b hold) := by
  intro a s h hl
  have hl : s.link = .started := by simpa using hl
  refine ⟨by simp [runActs_txByteActs, hl], ?_, _, readsAs_txByteActs b hold a h hl, ?_, ?_⟩
  · simp [runActs_txByteActs, State.linesOk, hl]
  · simp [cellMarks]
  · simp [runActs_txByteActs, cellMarks, State.openCount]

theorem cleanActs_bytes (bytes : List (Byte × Bool)) :
    CleanActs true true (bytes.flatMap fun x => txByteActs x.1 x.2) := by
  induction bytes with
  | nil => exact cleanActs_nil true
  | cons x xs ih => exact (cleanActs_txByteActs x.1 x.2).append ih

theorem cleanActs_transactionActs (bytes : List (Byte × Bool)) :
    CleanActs false false (transactionActs bytes) :=
  (cleanActs_startActs.append (cleanActs_bytes bytes)).append cleanActs_stopActs

theorem cleanActs_writeCodeActs (s : State) (c : Code) :
    CleanActs false false (writeCodeActs s c) :=
  ((cleanActs_upd _ _ (by simp)).append (cleanActs_transactionActs _)).append
    (cleanActs_upd _ _ (by simp))

theorem cleanActs_storeActs (s : State) : CleanActs false false (storeActs s) :=
  (((cleanActs_transactionActs _).append (cleanActs_transactionActs _)).append
    (cleanActs_transactionActs _)).append (cleanActs_hold _ _)

theorem cleanActs_probeActs (s : State) : CleanActs false false (probeActs s) :=
  (cleanActs_transactionActs _).append (cleanActs_upd _ _ (by simp))

/-- The lines of every instruction run cleanly from every link state they are accepted in. -/
theorem cleanActs_actsOf (i : Instr) (s : State) (hr : refusedIn i s.link = false) :
    ∃ o', CleanActs (decide (s.link = .started)) o' (actsOf i s) := by
  have closed : ∀ acts o', decide (s.link = .started) = false → CleanActs false o' acts →
      ∃ o', CleanActs (decide (s.link = .started)) o' acts :=
    fun acts o' hl h => ⟨o', hl ▸ h⟩
  have opened : ∀ acts o', decide (s.link ≠ .started) = false → CleanActs true o' acts →
      ∃ o', CleanActs (decide (s.link = .started)) o' acts := by
    intro acts o' hl h
    rw [decide_eq_true (p := s.link = .started) (by simpa using hl)]
    exact ⟨o', h⟩
  cases i with
  | setCal lo hi =>
    simp only [actsOf]
    split
    · exact ⟨_, cleanActs_upd _ _ (by simp)⟩
    · exact ⟨_, cleanActs_nil _⟩
  | stop => exact opened _ _ hr cleanActs_stopActs
  | txByte b nh =>
    exact opened _ _ hr ((cleanActs_txByteActs b (!nh)).append (cleanActs_upd _ _ (by simp)))
  | addrByte a => exact opened _ _ hr (cleanActs_txByteActs (addrByteOf a) true)
  | probe => exact closed _ _ hr (cleanActs_probeActs s)
  | writeCode c => exact closed _ _ hr (cleanActs_writeCodeActs s (maskCode c))
  | writeCurrent x =>
    exact closed _ _ hr
      ((cleanActs_writeCodeActs s (s.toCode x)).append (cleanActs_upd _ _ (by simp)))
  | store => exact closed _ _ hr (cleanActs_storeActs s)
  | start => exact closed _ _ hr cleanActs_startActs
  | probeFrame a => exact closed _ _ hr (cleanActs_transactionActs _)
  | writeCodeFrame a r l h => exact closed _ _ hr (cleanActs_transactionActs _)
  | storeFrame1 => exact closed _ _ hr (cleanActs_transactionActs storeBytes1)
  | storeFrame2 => exact closed _ _ hr (cleanActs_transactionActs storeBytes2)
  | storeFrame3 a => exact closed _ _ hr (cleanActs_transactionActs _)

/-- An accepted instruction, finished, has run cleanly and left no command in progress. -/
theorem cleanRun_accept_finish (i : Instr) (s : State) (hs : s.seq = none)
    (h : s.linesOk = true) : s.CleanRun (accept i s).finish := by
  rw [accept_eq]
  cases hr : refusedIn i s.link
  · obtain ⟨o', hclean⟩ := cleanActs_actsOf i s hr
    have hrun := (hclean none s h (by simp)).2
    rw [if_neg (by simp), State.issue_finish]
    exact hrun
  · rw [if_pos rfl, State.finish_of_idle s.refuseSeq hs]
    exact State.cleanRun_of_silent h rfl rfl rfl

/-- Settles O41: every instruction's lines are sequences of START, TXBYTE, STOP, holds and register writes, each of which runs
cleanly. -/
theorem noInstructionViolatesTheLines : Obligations.NoInstructionViolatesTheLines := by
  intro i s t hb h hx
  have hs := s.busy_eq_false.1 hb
  obtain ⟨hok, ms, hreads, hviol, hcount⟩ := cleanRun_accept_finish i s hs h
  rw [exec_eq_accept_finish i s hs] at hx
  injection hx with hx
  subst hx
  rw [hreads.read_newEvents]
  exact ⟨rfl, (State.busy_eq_false _).2 (State.finish_seq _), hok, hviol, hcount⟩

end Sys2Proof.Machine

/-! PROOF. What every meaning and every step keeps, from what each single write keeps (R21 to R24, R28, R32, R33, R38). -/

namespace Sys2Proof.Machine

/-! Which register writes an instruction's lines hold. -/

/-- The register writes an instruction may make: `ACK` and `LINK` are the link protocol's, each other register is written by the
commands it belongs to, and a calibration pair only where it is valid (R174). -/
def mayWrite (i : Instr) : Update → Prop
  | .setLink _ => True
  | .ackFromSample => True
  | .setOut _ => (∃ code, i = .writeCode code) ∨ ∃ x, i = .writeCurrent x
  | .setResult _ => (∃ code, i = .writeCode code) ∨ ∃ x, i = .writeCurrent x
  | .resultFromAck => ∃ b nh, i = .txByte b nh
  | .probeStatus => i = .probe
  | .setCal lo hi => (∃ lo' hi', i = .setCal lo' hi') ∧ lo.toNat < hi.toNat

theorem mayWrite_of_mem_txByteActs (i : Instr) {u : Update} {b : Byte} {h : Bool}
    (hu : .upd u ∈ txByteActs b h) : mayWrite i u := by
  rw [upd_mem_txByteActs u b h hu]
  trivial

theorem mayWrite_of_mem_transactionActs (i : Instr) {u : Update} {bytes : List (Byte × Bool)}
    (hu : .upd u ∈ transactionActs bytes) : mayWrite i u := by
  obtain rfl | ⟨l, rfl⟩ := upd_mem_transactionActs u bytes hu <;> trivial

theorem mayWrite_of_mem_writeCodeActs {i : Instr} {u : Update} {s : State} {c : Code}
    (hi : (∃ code, i = .writeCode code) ∨ ∃ x, i = .writeCurrent x)
    (hu : .upd u ∈ writeCodeActs s c) : mayWrite i u := by
  obtain rfl | ⟨l, rfl⟩ | rfl | ⟨v, rfl⟩ := upd_mem_writeCodeActs u s c hu
  · trivial
  · trivial
  · exact hi
  · exact hi

/-- A pair that passes SET_CAL's test fits the registers, so it is valid there too. -/
theorem codeField_lt_of_calValid {lo hi : BitVec 16} (h : calValid lo hi = true) :
    (codeField lo).toNat < (codeField hi).toNat := by
  simp only [calValid, Bool.and_eq_true, decide_eq_true_eq] at h
  obtain ⟨hlt, hmax⟩ := h
  have hmax : hi.toNat ≤ 4095 := hmax
  rw [codeField_toNat, codeField_toNat]
  omega

/-- Every register write among an instruction's lines is one of its own. -/
theorem mayWrite_of_mem_actsOf {i : Instr} {u : Update} {s : State} (hu : .upd u ∈ actsOf i s) :
    mayWrite i u := by
  cases i with
  | probe =>
    obtain hu | hu := List.mem_append.1 hu
    · exact mayWrite_of_mem_transactionActs _ hu
    · obtain rfl : u = .probeStatus := by simpa using hu
      rfl
  | setCal lo hi =>
    cases hv : calValid lo hi
    · simp [actsOf, hv] at hu
    · obtain rfl : u = .setCal (codeField lo) (codeField hi) := by simpa [actsOf, hv] using hu
      exact ⟨⟨lo, hi, rfl⟩, codeField_lt_of_calValid hv⟩
  | writeCode code => exact mayWrite_of_mem_writeCodeActs (.inl ⟨code, rfl⟩) hu
  | writeCurrent x =>
    obtain hu | hu := List.mem_append.1 hu
    · exact mayWrite_of_mem_writeCodeActs (.inr ⟨x, rfl⟩) hu
    · obtain rfl : u = .setResult ((s.toCode x).setWidth 32) := by simpa using hu
      exact .inr ⟨x, rfl⟩
  | store =>
    obtain hu | hu := List.mem_append.1 hu
    · obtain hu | hu := List.mem_append.1 hu
      · obtain hu | hu := List.mem_append.1 hu <;> exact mayWrite_of_mem_transactionActs _ hu
      · exact mayWrite_of_mem_transactionActs _ hu
    · simp at hu
  | start =>
    obtain rfl : u = .setLink .started := by simpa [actsOf, startActs] using hu
    trivial
  | stop =>
    obtain rfl : u = .setLink .stopped := by simpa [actsOf, stopActs] using hu
    trivial
  | txByte b nh =>
    obtain hu | hu := List.mem_append.1 hu
    · exact mayWrite_of_mem_txByteActs _ hu
    · obtain rfl : u = .resultFromAck := by simpa using hu
      exact ⟨b, nh, rfl⟩
  | addrByte a => exact mayWrite_of_mem_txByteActs _ (b := addrByteOf a) (h := true) hu
  | probeFrame a => exact mayWrite_of_mem_transactionActs _ hu
  | writeCodeFrame a r l h => exact mayWrite_of_mem_transactionActs _ hu
  | storeFrame1 => exact mayWrite_of_mem_transactionActs _ (bytes := storeBytes1) hu
  | storeFrame2 => exact mayWrite_of_mem_transactionActs _ (bytes := storeBytes2) hu
  | storeFrame3 a => exact mayWrite_of_mem_transactionActs _ hu

/-! What a meaning keeps. -/

/-- A micro-operation writes the line registers, the trace and the environment's side, and nothing else. -/
theorem MicroOp.run_frame (m : MicroOp) (a : Option Bool) (s : State) :
    (m.run a s).2 = { s with
      sclO := (m.run a s).2.sclO, sdaO := (m.run a s).2.sdaO, sdaOe := (m.run a s).2.sdaOe
      trace := (m.run a s).2.trace
      samples := (m.run a s).2.samples, drawn := (m.run a s).2.drawn } := by
  cases m <;> rfl

/-- A register write writes no line register, no error flag, no configuration, no trace and nothing at the boundary. -/
theorem Update.run_frame (u : Update) (a : Option Bool) (s : State) :
    u.run a s = { s with
      calLo := (u.run a s).calLo, calHi := (u.run a s).calHi, calEn := (u.run a s).calEn
      outCode := (u.run a s).outCode, outValid := (u.run a s).outValid
      ready := (u.run a s).ready, ack := (u.run a s).ack, link := (u.run a s).link
      result := (u.run a s).result } := by
  cases u with
  | probeStatus => cases hack : s.ack <;> simp [Update.run, hack, State.putResult, State.putReady]
  | _ => rfl

/-- PROBE's status, as one write: `READY` is set where the device has acknowledged (R151). -/
theorem Update.run_probeStatus (a : Option Bool) (s : State) :
    Update.probeStatus.run a s = { s with
      result := if s.ack then Config.statusNotFound else Config.statusFound
      ready := s.ready || !s.ack } := by
  cases hack : s.ack <;> simp [Update.run, hack, State.putResult, State.putReady]

/-- A meaning holds the command off, refuses it in a link state it is refused in, or runs its lines in one it is accepted in. -/
theorem exec_inversion {i : Instr} {s t : State} (h : exec i s = .next t) :
    (s.busy = true ∧ t = s) ∨
    (s.seq = none ∧ refusedIn i s.link = true ∧ t = s.refuseSeq) ∨
    (s.seq = none ∧ refusedIn i s.link = false ∧
      t = (runActs (actsOf i s) none s).2.putSeq none) := by
  cases hb : s.busy
  · have hs := s.busy_eq_false.1 hb
    rw [exec_of_idle i s hs] at h
    injection h with h
    cases hr : refusedIn i s.link <;> rw [hr] at h
    · exact .inr (.inr ⟨hs, rfl, h.symm⟩)
    · exact .inr (.inl ⟨hs, rfl, h.symm⟩)
  · rw [exec_of_busy i s hb] at h
    injection h with h
    exact .inl ⟨rfl, h.symm⟩

/-- What the micro-operations, the sequencer's state, the refusal and the instruction's own register writes keep, its meaning keeps. -/
theorem exec_keep {P : State → Prop} {i : Instr} {s t : State} (h : exec i s = .next t)
    (hop : ∀ (m : MicroOp) a s, P s → P (m.run a s).2)
    (hseq : ∀ s p, P s → P (s.putSeq p)) (href : ∀ s, P s → P s.refuseSeq) (hs : P s)
    (hupd : ∀ u, mayWrite i u → ∀ a s, P s → P (u.run a s)) : P t := by
  obtain ⟨-, rfl⟩ | ⟨-, -, rfl⟩ | ⟨-, -, rfl⟩ := exec_inversion h
  · exact hs
  · exact href s hs
  · exact hseq _ _ (runActs_keep P _ hop (fun u hu => hupd u (mayWrite_of_mem_actsOf hu)) _ _ hs)

/-- Settles O51: of the register writes only SET_CAL's own reaches the calibration registers. -/
theorem calibrationWrittenOnlyBySetCal : Obligations.CalibrationWrittenOnlyBySetCal := by
  intro i s t h hi
  refine exec_keep (P := fun t => t.calLo = s.calLo ∧ t.calHi = s.calHi ∧ t.calEn = s.calEn) h
    (fun m a x hx => by rw [m.run_frame]; exact hx) (fun _ _ hx => hx) (fun _ hx => hx)
    ⟨rfl, rfl, rfl⟩ fun u hu a x hx => ?_
  cases u with
  | setCal lo hi' =>
    obtain ⟨⟨lo, hi', rfl⟩, -⟩ := hu
    exact absurd rfl (hi lo hi')
  | probeStatus =>
    rw [Update.run_probeStatus]
    exact hx
  | _ => exact hx

/-- Settles O53: of the register writes only `setOut` reaches the Output State, and only the two writes hold it. -/
theorem outputWrittenOnlyByWrites : Obligations.OutputWrittenOnlyByWrites := by
  intro i s t h hcode hcur
  refine exec_keep (P := fun t => t.outCode = s.outCode ∧ t.outValid = s.outValid) h
    (fun m a x hx => by rw [m.run_frame]; exact hx) (fun _ _ hx => hx) (fun _ hx => hx)
    ⟨rfl, rfl⟩ fun u hu a x hx => ?_
  cases u with
  | setOut c =>
    obtain ⟨code, rfl⟩ | ⟨y, rfl⟩ := hu
    · exact absurd rfl (hcode code)
    · exact absurd rfl (hcur y)
  | probeStatus =>
    rw [Update.run_probeStatus]
    exact hx
  | _ => exact hx

/-- Settles O54: of the register writes only PROBE's status reaches `READY`, and it only sets it. -/
theorem readyWrittenOnlyByProbe : Obligations.ReadyWrittenOnlyByProbe := by
  intro i s t h
  refine ⟨fun hi => ?_, fun hready => ?_⟩
  · refine exec_keep (P := fun t => t.ready = s.ready) h
      (fun m a x hx => by rw [m.run_frame]; exact hx) (fun _ _ hx => hx) (fun _ hx => hx)
      rfl fun u hu a x hx => ?_
    cases u with
    | probeStatus => exact absurd hu hi
    | _ => exact hx
  · refine exec_keep (P := fun t => t.ready = true) h
      (fun m a x hx => by rw [m.run_frame]; exact hx) (fun _ _ hx => hx) (fun _ hx => hx)
      hready fun u _ a x hx => ?_
    cases u with
    | probeStatus =>
      rw [Update.run_probeStatus]
      simp [hx]
    | _ => exact hx

/-- Only PROBE, TXBYTE and the two writes write `RESULT`. -/
theorem exec_result {i : Instr} {s t : State} (h : exec i s = .next t) (hprobe : i ≠ .probe)
    (htx : ∀ b nh, i ≠ .txByte b nh) (hcode : ∀ code, i ≠ .writeCode code)
    (hcur : ∀ x, i ≠ .writeCurrent x) : t.result = s.result := by
  refine exec_keep (P := fun t => t.result = s.result) h
    (fun m a x hx => by rw [m.run_frame]; exact hx) (fun _ _ hx => hx) (fun _ hx => hx)
    rfl fun u hu a x hx => ?_
  cases u with
  | setResult v =>
    obtain ⟨code, rfl⟩ | ⟨y, rfl⟩ := hu
    · exact absurd rfl (hcode code)
    · exact absurd rfl (hcur y)
  | resultFromAck =>
    obtain ⟨b, nh, rfl⟩ := hu
    exact absurd rfl (htx b nh)
  | probeStatus => exact absurd hu hprobe
  | _ => exact hx

/-- A refused command sets `ERR_SEQ` and writes nothing else. -/
theorem exec_result_of_refused {i : Instr} {s t : State} (h : exec i s = .next t)
    (hr : refusedIn i s.link = true) : t.result = s.result := by
  obtain ⟨-, rfl⟩ | ⟨-, -, rfl⟩ | ⟨-, hr', -⟩ := exec_inversion h
  · rfl
  · rfl
  · rw [hr] at hr'
    cases hr'

/-- No line of pseudocode writes `ERR_SEQ`: only a refusal sets it. -/
theorem runActs_errSeq (acts : List Act) (a : Option Bool) (s : State) :
    (runActs acts a s).2.errSeq = s.errSeq := by
  refine runActs_keep (fun t => t.errSeq = s.errSeq) acts (fun m a x hx => ?_)
    (fun u _ a x hx => ?_) a s rfl
  · rw [m.run_frame]
    exact hx
  · rw [u.run_frame]
    exact hx

/-- An `ERR_SEQ` that rises is that of a refusal. -/
theorem exec_result_of_errSeq_rises {i : Instr} {s t : State} (h : exec i s = .next t)
    (hs : s.errSeq = false) (ht : t.errSeq = true) : t.result = s.result := by
  obtain ⟨-, rfl⟩ | ⟨-, -, rfl⟩ | ⟨-, -, rfl⟩ := exec_inversion h
  · rfl
  · rfl
  · rw [State.putSeq_errSeq, runActs_errSeq, hs] at ht
    cases ht

/-- Settles O55: the void commands hold no write of `RESULT`, and a refusal writes `ERR_SEQ` alone. -/
theorem resultKeptByVoidAndRefusedCommands : Obligations.ResultKeptByVoidAndRefusedCommands := by
  intro i s t h hcase
  obtain rfl | rfl | rfl | ⟨lo, hi, rfl⟩ | ⟨hl, hi⟩ | ⟨hl, b, nh, rfl⟩ | ⟨hs, ht⟩ := hcase
  · exact exec_result h (by simp) (by simp) (by simp) (by simp)
  · exact exec_result h (by simp) (by simp) (by simp) (by simp)
  · exact exec_result h (by simp) (by simp) (by simp) (by simp)
  · exact exec_result h (by simp) (by simp) (by simp) (by simp)
  · refine exec_result_of_refused h ?_
    obtain rfl | ⟨code, rfl⟩ | ⟨x, rfl⟩ := hi <;> exact decide_eq_true hl
  · exact exec_result_of_refused h (decide_eq_true hl)
  · exact exec_result_of_errSeq_rises h hs ht

/-! What a step keeps. -/

/-- What the micro-operations, the register writes still to do and the sequencer's state keep, a step of the sequencer keeps. -/
theorem State.advance_keep {P : State → Prop} {s : State}
    (hop : ∀ (m : MicroOp) a s, P s → P (m.run a s).2)
    (hupd : ∀ p, s.seq = some p → ∀ u, .upd u ∈ p.todo → ∀ a s, P s → P (u.run a s))
    (hseq : ∀ s p, P s → P (s.putSeq p)) (hs : P s) : P s.advance := by
  unfold State.advance
  split
  · exact hs
  · next p hp =>
    split
    · exact hseq _ _ hs
    · next m rest ht =>
      refine settle_keep P _ _ _ (fun u hu => hupd p hp u ?_) hseq _ _ (hop m _ _ hs)
      rw [ht]
      exact List.mem_cons_of_mem _ hu
    · next u rest ht =>
      refine settle_keep P _ _ _ (fun v hv => hupd p hp v ?_) hseq _ _
        (hupd p hp u (ht ▸ List.mem_cons_self ..) _ _ hs)
      rw [ht]
      exact List.mem_cons_of_mem _ hv

/-- Everything a step other than reset does to the state keeps the predicate. -/
structure KeptByWrites (P : State → Prop) : Prop where
  op : ∀ (m : MicroOp) a s, P s → P (m.run a s).2
  upd : ∀ (u : Update) a s, P s → P (u.run a s)
  seq : ∀ s p, P s → P (State.putSeq s p)
  host : ∀ s h, P s → P (State.putHost s h)
  read : ∀ s n v, P s → P (State.noteRead s n v)
  refuseSeq : ∀ s, P s → P (State.refuseSeq s)
  refuseOp : ∀ s, P s → P (State.refuseOp s)

theorem KeptByWrites.advance {P : State → Prop} (hP : KeptByWrites P) {s : State} (hs : P s) :
    P s.advance :=
  State.advance_keep hP.op (fun _ _ u _ => hP.upd u) hP.seq hs

theorem KeptByWrites.accept {P : State → Prop} (hP : KeptByWrites P) (i : Instr) {s : State}
    (hs : P s) : P (accept i s) := by
  obtain ha | ha := accept_cases i s <;> rw [ha]
  · exact settle_keep P _ _ _ (fun u _ => hP.upd u) hP.seq _ _ hs
  · exact hP.refuseSeq s hs

/-- What all these writes keep, every step but reset keeps. -/
theorem KeptByWrites.step {P : State → Prop} (hP : KeptByWrites P) {s t : State}
    (h : step s = .next t) (hreset : ∀ d r rest, s.host ≠ .reset d r :: rest) (hs : P s) : P t := by
  obtain rfl | ⟨rest, rfl⟩ | ⟨d, r, rest, hhost, -⟩ | ⟨n, v, rest, rfl⟩ | ⟨rest, -, rfl⟩ |
    ⟨i, rest, -, rfl⟩ | ⟨i, rest, -, hx⟩ := step_cases s t h
  · exact hP.advance hs
  · exact hP.advance (hP.host _ _ hs)
  · exact absurd hhost (hreset d r rest)
  · exact hP.read _ _ _ (hP.host _ _ hs)
  · exact hP.refuseOp _ (hP.host _ _ hs)
  · exact hP.accept i (hP.host _ _ hs)
  · exact exec_keep hx hP.op hP.seq hP.refuseSeq (hP.host _ _ hs) fun u _ => hP.upd u

/-- `CAL_EN = 1` is kept: its only write, SET_CAL's, sets it. -/
theorem keptByWrites_calEn : KeptByWrites fun t => t.calEn = true where
  op m a x hx := by rw [m.run_frame]; exact hx
  upd u a x hx := by
    cases u with
    | setCal lo hi => rfl
    | probeStatus =>
      rw [Update.run_probeStatus]
      exact hx
    | _ => exact hx
  seq _ _ hx := hx
  host _ _ hx := hx
  read _ _ _ hx := hx
  refuseSeq _ hx := hx
  refuseOp _ hx := hx

/-- Settles O52: no write but reset's clears `CAL_EN`. -/
theorem calibratedModeEndsOnlyAtReset : Obligations.CalibratedModeEndsOnlyAtReset :=
  fun _ _ h hs hreset => keptByWrites_calEn.step h hreset hs

/-- `ERR_SEQ = 1` is kept: its only write, the link-sequence refusal, sets it. -/
theorem keptByWrites_errSeq : KeptByWrites fun t => t.errSeq = true where
  op m a x hx := by rw [m.run_frame]; exact hx
  upd u a x hx := by rw [u.run_frame]; exact hx
  seq _ _ hx := hx
  host _ _ hx := hx
  read _ _ _ hx := hx
  refuseSeq _ _ := rfl
  refuseOp _ hx := hx

/-- `ERR_OP = 1` is kept: its only write, the reserved-opcode refusal, sets it. -/
theorem keptByWrites_errOp : KeptByWrites fun t => t.errOp = true where
  op m a x hx := by rw [m.run_frame]; exact hx
  upd u a x hx := by rw [u.run_frame]; exact hx
  seq _ _ hx := hx
  host _ _ hx := hx
  read _ _ _ hx := hx
  refuseSeq _ hx := hx
  refuseOp _ _ := rfl

/-- Settles O56: no write but reset's clears an error flag. -/
theorem errorFlagsStickUntilReset : Obligations.ErrorFlagsStickUntilReset :=
  fun _ _ h hreset => ⟨keptByWrites_errSeq.step h hreset, keptByWrites_errOp.step h hreset⟩

/-- The configuration is kept at any value. -/
theorem keptByWrites_configuration (d : BitVec 7) (r : Byte) :
    KeptByWrites fun t => t.devAddr = d ∧ t.regSel = r where
  op m a x hx := by rw [m.run_frame]; exact hx
  upd u a x hx := by rw [u.run_frame]; exact hx
  seq _ _ hx := hx
  host _ _ hx := hx
  read _ _ _ hx := hx
  refuseSeq _ hx := hx
  refuseOp _ hx := hx

/-- Settles O57: nothing but reset writes the configuration. -/
theorem configurationConstantUntilReset : Obligations.ConfigurationConstantUntilReset :=
  fun s _ h hreset => (keptByWrites_configuration s.devAddr s.regSel).step h hreset ⟨rfl, rfl⟩

/-- A micro-operation appends its one event, and draws a sample where that is a `SAMPLE`. -/
theorem MicroOp.run_event (m : MicroOp) (a : Option Bool) (s : State) :
    ∃ e, (m.run a s).2.trace = s.trace ++ [e] ∧
      (m.run a s).2.drawn = s.drawn + sampleCount [e] := by
  cases m with
  | readSda => exact ⟨_, rfl, by cases s.sampleAt 0 <;> rfl⟩
  | _ => exact ⟨_, rfl, rfl⟩

/-- A register write emits nothing. -/
theorem Update.run_trace (u : Update) (a : Option Bool) (s : State) :
    (u.run a s).trace = s.trace := by
  rw [u.run_frame]

theorem sampleCount_append (es fs : List Event) :
    sampleCount (es ++ fs) = sampleCount es + sampleCount fs := by
  simp only [sampleCount, List.count_append]
  omega

/-- An extension of a trace with one sample drawn for each of its `SAMPLE` events is kept: micro-operations alone write the trace and
the count of samples, and write them together. -/
theorem keptByWrites_traceExtends (tr : List Event) (n : Nat) :
    KeptByWrites fun t => ∃ es, t.trace = tr ++ es ∧ t.drawn = n + sampleCount es where
  op := by
    rintro m a x ⟨es, htrace, hdrawn⟩
    obtain ⟨e, htrace', hdrawn'⟩ := m.run_event a x
    refine ⟨es ++ [e], ?_, ?_⟩
    · rw [htrace', htrace, List.append_assoc]
    · rw [hdrawn', hdrawn, sampleCount_append, Nat.add_assoc]
  upd u a x hx := by rw [u.run_frame]; exact hx
  seq _ _ hx := hx
  host _ _ hx := hx
  read _ _ _ hx := hx
  refuseSeq _ hx := hx
  refuseOp _ hx := hx

/-- Settles O58: from the state's own trace and count, by `keptByWrites_traceExtends`. -/
theorem stepsOnlyAppendToTheTrace : Obligations.StepsOnlyAppendToTheTrace :=
  fun s _ h hreset =>
    (keptByWrites_traceExtends s.trace s.drawn).step h hreset ⟨[], by simp, rfl⟩

end Sys2Proof.Machine

/-! PROOF. The invariant of calibration, lines and sequencer, kept by every step (R21, R26, R40). -/

namespace Sys2Proof.Machine

/-! The sequencer: where a command in progress stands, and what its step is. -/

/-- What is still to do begins with a micro-operation and keeps the calibration invariant. -/
theorem Progress.ok_iff (p : Progress) :
    p.ok = true ↔ ∃ m rest, p.todo = .op m :: rest ∧ rest.all Act.calOk = true := by
  obtain ⟨cmd, n, todo, a⟩ := p
  cases todo with
  | nil => simp [Progress.ok]
  | cons x xs => cases x <;> simp [Progress.ok, Act.calOk]

/-- A settled command, where it is in progress, stands before a micro-operation at the position given. -/
theorem settle_seq {cmd : Instr} {n : Nat} {acts : List Act} {a : Option Bool} {s : State}
    {p : Progress} (hacts : acts.all Act.calOk = true)
    (hp : (settle cmd n acts a s).seq = some p) : p.cmd = cmd ∧ p.done = n ∧ p.ok = true := by
  induction acts generalizing a s with
  | nil => cases hp
  | cons x xs ih =>
    obtain ⟨-, hxs⟩ : x.calOk = true ∧ xs.all Act.calOk = true := by
      simpa only [List.all_cons, Bool.and_eq_true] using hacts
    cases x with
    | op m =>
      obtain rfl := Option.some.inj hp
      exact ⟨rfl, rfl, (Progress.ok_iff _).2 ⟨m, xs, rfl, hxs⟩⟩
    | upd u => exact ih hxs hp

/-- Settling emits nothing. -/
theorem settle_trace (cmd : Instr) (n : Nat) (acts : List Act) (a : Option Bool) (s : State) :
    (settle cmd n acts a s).trace = s.trace :=
  settle_keep (fun t => t.trace = s.trace) cmd n acts
    (fun u _ a x hx => (u.run_trace a x).trans hx) (fun _ _ hx => hx) a s rfl

/-- A step of a command that stands before a micro-operation runs it and settles the rest. -/
theorem State.advance_of_op {s : State} {p : Progress} {m : MicroOp} {rest : List Act}
    (hp : s.seq = some p) (ht : p.todo = .op m :: rest) :
    s.advance =
      settle p.cmd (p.done + 1) rest (m.run p.sampled s).1 (m.run p.sampled s).2 := by
  simp only [State.advance, hp, ht]

/-- A step where no command is in progress changes nothing. -/
theorem State.advance_of_idle {s : State} (hs : s.seq = none) : s.advance = s := by
  simp only [State.advance, hs]

/-! The invariant. -/

theorem State.inv_iff (s : State) :
    s.inv = true ↔
      s.calOk = true ∧ s.finish.linesOk = true ∧ ∀ p, s.seq = some p → p.ok = true := by
  cases hs : s.seq <;> simp [State.inv, hs, and_assoc]

/-- A register write that keeps the calibration invariant keeps it. -/
theorem Update.run_calOk {u : Update} (hu : (Act.upd u).calOk = true) (a : Option Bool) {s : State}
    (hs : s.calOk = true) : (u.run a s).calOk = true := by
  cases u with
  | setCal lo hi => exact hu
  | probeStatus =>
    rw [Update.run_probeStatus]
    exact hs
  | _ => exact hs

/-- A micro-operation leaves the calibration pair. -/
theorem MicroOp.run_calOk (m : MicroOp) (a : Option Bool) {s : State} (hs : s.calOk = true) :
    (m.run a s).2.calOk = true := by
  rw [m.run_frame]
  exact hs

/-- Every line of an instruction keeps the calibration invariant. -/
theorem calOk_actsOf (i : Instr) (s : State) : (actsOf i s).all Act.calOk = true := by
  rw [List.all_eq_true]
  intro x hx
  cases x with
  | op m => rfl
  | upd u =>
    have hu := mayWrite_of_mem_actsOf hx
    cases u with
    | setCal lo hi => exact decide_eq_true hu.2
    | _ => rfl

theorem inv_settle {cmd : Instr} {n : Nat} {acts : List Act} {a : Option Bool} {s : State}
    (hacts : acts.all Act.calOk = true) (hcal : s.calOk = true)
    (hlines : (runActs acts a s).2.linesOk = true) : (settle cmd n acts a s).inv = true := by
  refine (State.inv_iff _).2 ⟨?_, ?_, fun p hp => (settle_seq hacts hp).2.2⟩
  · exact settle_keep (fun t => t.calOk = true) cmd n acts
      (fun u hu a x hx => Update.run_calOk (List.all_eq_true.1 hacts _ hu) a hx)
      (fun _ _ hx => hx) a s hcal
  · rw [settle_finish]
    exact hlines

/-- The invariant of an idle state is that of the calibration pair and of the lines. -/
theorem inv_of_idle {s : State} (hs : s.seq = none) :
    s.inv = true ↔ s.calOk = true ∧ s.linesOk = true := by
  simp [State.inv_iff, hs, State.finish_of_idle s hs]

theorem inv_advance {s : State} (h : s.inv = true) : s.advance.inv = true := by
  obtain ⟨hcal, hlines, hok⟩ := s.inv_iff.1 h
  cases hs : s.seq with
  | none => rwa [State.advance_of_idle hs]
  | some p =>
    obtain ⟨m, rest, ht, hrest⟩ := p.ok_iff.1 (hok p hs)
    have hadv := State.advance_of_op hs ht
    rw [← s.advance_finish, hadv, settle_finish] at hlines
    rw [hadv]
    exact inv_settle hrest (m.run_calOk p.sampled hcal) hlines

theorem inv_finish {s : State} (h : s.inv = true) : s.finish.inv = true := by
  obtain ⟨hcal, hlines, hok⟩ := s.inv_iff.1 h
  refine (inv_of_idle s.finish_seq).2 ⟨?_, hlines⟩
  cases hs : s.seq with
  | none => rwa [State.finish_of_idle s hs]
  | some p =>
    obtain ⟨m, rest, ht, hrest⟩ := p.ok_iff.1 (hok p hs)
    have htodo : p.todo.all Act.calOk = true := by
      rw [ht]
      exact hrest
    simp only [State.finish, hs]
    exact runActs_keep (fun t => t.calOk = true) p.todo (fun m a _ hx => m.run_calOk a hx)
      (fun u hu a _ hx => Update.run_calOk (List.all_eq_true.1 htodo _ hu) a hx) _ _ hcal

/-- An acceptance keeps the invariant: the lines of the instruction run cleanly. -/
theorem inv_accept (i : Instr) {s : State} (hs : s.seq = none) (h : s.inv = true) :
    (accept i s).inv = true := by
  obtain ⟨hcal, hlines⟩ := (inv_of_idle hs).1 h
  have hfin := (cleanRun_accept_finish i s hs hlines).1
  obtain ha | ha := accept_cases i s <;> rw [ha] at hfin ⊢
  · rw [State.issue_finish] at hfin
    exact inv_settle (calOk_actsOf i s) hcal hfin
  · exact (inv_of_idle (s := s.refuseSeq) hs).2 ⟨hcal, hlines⟩

/-- The host's side of the state takes no part in finishing. -/
theorem State.finish_host (s : State) (h : List HostAct) (r : List StatusRead) (k : Nat) :
    State.finish { s with host := h, reads := r, outReads := k } =
      { s.finish with host := h, reads := r, outReads := k } := by
  cases hs : s.seq with
  | none => simp only [State.finish, hs]
  | some p =>
    simp only [State.finish, hs]
    exact congrArg Prod.snd (runActs_host p.todo p.sampled (s.putSeq none) h r k)

/-- The host's side of the state takes no part in the invariant. -/
theorem State.inv_host (s : State) (h : List HostAct) (r : List StatusRead) (k : Nat) :
    State.inv { s with host := h, reads := r, outReads := k } = s.inv := by
  simp only [State.inv, State.finish_host]
  rfl

theorem State.inv_putHost (s : State) (h : List HostAct) : (s.putHost h).inv = s.inv :=
  s.inv_host h s.reads s.outReads

theorem State.inv_noteRead (s : State) (n : Nat) (v : Word32) : (s.noteRead n v).inv = s.inv :=
  s.inv_host s.host _ _

/-- A reset leaves the values of R43, which meet the invariant. -/
theorem State.inv_resetNow (s : State) (d : BitVec 7) (r : Byte) :
    (s.resetNow d r).inv = true :=
  (inv_of_idle rfl).2 ⟨rfl, rfl⟩

/-- Settles O49: each of the things a step can do keeps the invariant. -/
theorem stepKeepsTheInvariant : Obligations.StepKeepsTheInvariant := by
  intro s t h hstep
  have hhost : ∀ rest, (s.putHost rest).inv = true := fun rest => by rw [State.inv_putHost, h]
  obtain rfl | ⟨rest, rfl⟩ | ⟨d, r, rest, -, rfl⟩ | ⟨n, v, rest, rfl⟩ | ⟨rest, hs, rfl⟩ |
    ⟨i, rest, hs, rfl⟩ | ⟨i, rest, hs, hx⟩ := step_cases s t hstep
  · exact inv_advance h
  · exact inv_advance (hhost rest)
  · exact State.inv_resetNow _ d r
  · rw [State.inv_noteRead, hhost]
  · exact (inv_of_idle (s := (s.putHost rest).refuseOp) hs).2
      ((inv_of_idle (s := s.putHost rest) hs).1 (hhost rest))
  · exact inv_accept i hs (hhost rest)
  · rw [exec_eq_accept_finish i (s.putHost rest) hs] at hx
    injection hx with hx
    rw [← hx]
    exact inv_finish (inv_accept i hs (hhost rest))

/-- Settles O48: the reset state is idle, with the default pair and both lines high. -/
theorem resetStateMeetsTheInvariant : Obligations.ResetStateMeetsTheInvariant :=
  (inv_of_idle rfl).2 ⟨rfl, rfl⟩

/-- Settles O50: the invariant of an idle state, and the width of a code. -/
theorem quietStateFromTheInvariant : Obligations.QuietStateFromTheInvariant := by
  intro s h hb
  obtain ⟨hcal, hlines⟩ := (inv_of_idle (s.busy_eq_false.1 hb)).1 h
  have hle : ∀ c : Code, c.toNat ≤ 4095 := fun c => by have := c.toNat_lt; omega
  have hlt : s.calLo.toNat < s.calHi.toNat := of_decide_eq_true hcal
  by_cases hl : s.link = .started
  · obtain ⟨hoe, hscl⟩ := (State.linesOk_of_started hl).1 hlines
    exact ⟨hoe, fun _ => hscl, by simp [hl], hlt, hle _, fun _ => hle _⟩
  · obtain ⟨hoe, hhigh⟩ := (State.linesOk_of_not_started hl).1 hlines
    exact ⟨hoe, fun hl' => absurd hl' hl, fun _ => hhigh, hlt, hle _, fun _ => hle _⟩

/-- Settles O9: the command stands before a micro-operation, which emits its one event, and settling emits none. -/
theorem busyStepEmitsOneEvent : Obligations.BusyStepEmitsOneEvent := by
  intro s p h hp
  obtain ⟨-, -, hok⟩ := s.inv_iff.1 h
  obtain ⟨m, rest, ht, hrest⟩ := p.ok_iff.1 (hok p hp)
  rw [State.advance_of_op hp ht]
  obtain ⟨e, htrace, -⟩ := m.run_event p.sampled s
  refine ⟨⟨e, by rw [settle_trace, htrace]⟩, fun q hq => ?_⟩
  obtain ⟨hcmd, hdone, -⟩ := settle_seq hrest hq
  exact ⟨hcmd, hdone⟩

end Sys2Proof.Machine

/-! PROOF. The step by the host's next act, the posted command run one micro-operation a step, the status port, the pins and
reset (R26, R34, R35, R39, R43). -/

namespace Sys2Proof.Machine

/-! What a step does, by the host's next act. -/

theorem step_of_host_nil {s : State} (hh : s.host = []) : step s = .next s.advance := by
  simp only [step, State.fetch, hh]

/-- A command word presented while `BUSY = 1` stays on the port and the sequencer goes on. -/
theorem step_of_busy {s : State} {w : CommandWord} {rest : List HostAct} (hb : s.busy = true)
    (hh : s.host = .call w :: rest ∨ s.host = .post w :: rest) : step s = .next s.advance := by
  obtain hh | hh := hh <;> simp only [step, State.fetch, hh, hb, if_true]

theorem step_of_call {s : State} {w : CommandWord} {i : Instr} {rest : List HostAct}
    (hb : s.busy = false) (hh : s.host = .call w :: rest) (hd : decode (.command w) = .ok i) :
    step s = exec i (s.putHost rest) := by
  simp [step, State.fetch, hh, hb, takeCall, hd]

theorem step_of_post {s : State} {w : CommandWord} {i : Instr} {rest : List HostAct}
    (hb : s.busy = false) (hh : s.host = .post w :: rest) (hd : decode (.command w) = .ok i) :
    step s = .next (accept i (s.putHost rest)) := by
  simp [step, State.fetch, hh, hb, takePost, hd]

theorem step_of_frame {s : State} {f : List WireSym} {i : Instr} {rest : List HostAct}
    (hb : s.busy = false) (hh : s.host = .frame f :: rest) (hd : decode (.wire f) = .ok i) :
    step s = exec i (s.putHost rest) := by
  simp [step, State.fetch, hh, hb, takeFrame, hd]

theorem step_of_read {s : State} {n : Nat} {v : Word32} {rest : List HostAct}
    (hh : s.host = .read n :: rest) (hv : (s.putHost rest).statusRead n = some v) :
    step s = .next ((s.putHost rest).noteRead n v) := by
  simp [step, State.fetch, hh, takeRead, hv]

theorem step_of_reset {s : State} {d : BitVec 7} {r : Byte} {rest : List HostAct}
    (hh : s.host = .reset d r :: rest) : step s = .next ((s.putHost rest).resetNow d r) := by
  simp only [step, State.fetch, hh]

/-- Settles O6: the call and the bench run `exec`. -/
theorem stepRunsTheDecodedInstruction : Obligations.StepRunsTheDecodedInstruction :=
  fun _ _ _ hb => ⟨fun _ hh hd => step_of_call hb hh hd, fun _ hh hd => step_of_frame hb hh hd⟩

/-- A step of the sequencer leaves what the host is going to do. -/
theorem State.advance_host (s : State) : s.advance.host = s.host :=
  State.advance_keep (P := fun t => t.host = s.host)
    (fun m a x hx => by rw [m.run_frame]; exact hx)
    (fun _ _ u _ a x hx => by rw [u.run_frame]; exact hx) (fun _ _ hx => hx) rfl

/-- Settles O7: the step is the sequencer's, and every meaning holds a command off while `BUSY = 1`. -/
theorem commandHeldOffWhileBusy : Obligations.CommandHeldOffWhileBusy :=
  ⟨fun s _ _ hb hh => ⟨step_of_busy hb hh, s.advance_host⟩, fun s i hb => exec_of_busy i s hb⟩

/-! A command run one micro-operation a step. -/

/-- How many micro-operations a list of lines holds. -/
def opCount (acts : List Act) : Nat :=
  acts.countP fun
    | .op _ => true
    | .upd _ => false

@[simp] theorem opCount_nil : opCount [] = 0 := rfl

@[simp] theorem opCount_op (m : MicroOp) (acts : List Act) :
    opCount (.op m :: acts) = opCount acts + 1 := by
  simp [opCount]

@[simp] theorem opCount_upd (u : Update) (acts : List Act) :
    opCount (.upd u :: acts) = opCount acts := by
  simp [opCount]

/-- A list of lines emits one event for each micro-operation. -/
theorem runActs_trace_length (acts : List Act) (a : Option Bool) (s : State) :
    (runActs acts a s).2.trace.length = s.trace.length + opCount acts := by
  induction acts generalizing a s with
  | nil => rfl
  | cons x xs ih =>
    cases x with
    | op m =>
      obtain ⟨e, htrace, -⟩ := m.run_event a s
      rw [runActs, ih, htrace, opCount_op, List.length_append, List.length_singleton]
      omega
    | upd u => rw [runActs, ih, u.run_trace, opCount_upd]

/-- A list of lines leaves the trace before it in place. -/
theorem runActs_trace_take (acts : List Act) (a : Option Bool) (s : State) :
    (runActs acts a s).2.trace.take s.trace.length = s.trace := by
  obtain ⟨es, htrace, -⟩ := runActs_trace acts a s
  rw [htrace, List.take_left]

/-- Settling writes the sequencer's state whatever it was. -/
theorem settle_putSeq (cmd : Instr) (n : Nat) (acts : List Act) (a : Option Bool) (s : State)
    (q : Option Progress) : settle cmd n acts a (s.putSeq q) = settle cmd n acts a s := by
  induction acts generalizing a s with
  | nil => rfl
  | cons x xs ih =>
    cases x with
    | op m => rfl
    | upd u => rw [settle, Update.run_putSeq, ih, settle]

/-- The step of a command settled before a micro-operation. -/
theorem advance_settle_op (cmd : Instr) (n : Nat) (m : MicroOp) (rest : List Act)
    (a : Option Bool) (s : State) :
    (settle cmd n (.op m :: rest) a s).advance =
      settle cmd (n + 1) rest (m.run a s).1 (m.run a s).2 := by
  rw [settle, State.advance_of_op rfl rfl, MicroOp.run_putSeq, settle_putSeq]

/-- After as many steps as there are micro-operations a settled command has run to its end. -/
theorem advance_iterate_settle (cmd : Instr) (n : Nat) (acts : List Act) (a : Option Bool)
    (s : State) :
    State.advance^[opCount acts] (settle cmd n acts a s) = (runActs acts a s).2.putSeq none := by
  induction acts generalizing n a s with
  | nil => rfl
  | cons x xs ih =>
    cases x with
    | op m => rw [opCount_op, Function.iterate_succ_apply, advance_settle_op, ih, runActs]
    | upd u => rw [opCount_upd, settle, ih, runActs]

/-- Before that, `k` steps have done `k` micro-operations of the same command, whose events are on the trace. -/
theorem advance_iterate_settle_busy (cmd : Instr) (n : Nat) (acts : List Act) (a : Option Bool)
    (s : State) (k : Nat) (hk : k < opCount acts) :
    (∃ p, (State.advance^[k] (settle cmd n acts a s)).seq = some p ∧ p.cmd = cmd ∧
      p.done = n + k) ∧
    (State.advance^[k] (settle cmd n acts a s)).trace =
      (runActs acts a s).2.trace.take (s.trace.length + k) := by
  induction acts generalizing n a s k with
  | nil => exact absurd hk (Nat.not_lt_zero k)
  | cons x xs ih =>
    cases x with
    | op m =>
      cases k with
      | zero => exact ⟨⟨_, rfl, rfl, rfl⟩, (runActs_trace_take _ a s).symm⟩
      | succ k =>
        rw [opCount_op] at hk
        obtain ⟨⟨p, hp, hcmd, hdone⟩, htrace⟩ :=
          ih (n + 1) (m.run a s).1 (m.run a s).2 k (by omega)
        obtain ⟨e, hlen, -⟩ := m.run_event a s
        rw [Function.iterate_succ_apply, advance_settle_op]
        refine ⟨⟨p, hp, hcmd, by omega⟩, ?_⟩
        rw [htrace, hlen, List.length_append, List.length_singleton, runActs, Nat.add_assoc,
          Nat.add_comm 1]
    | upd u =>
      rw [opCount_upd] at hk
      have h := ih n a (u.run a s) k hk
      rwa [u.run_trace] at h

/-- An acceptance leaves what the host is going to do. -/
theorem accept_host (i : Instr) (s : State) : (accept i s).host = s.host := by
  obtain ha | ha := accept_cases i s <;> rw [ha]
  · exact settle_keep (fun t => t.host = s.host) _ _ _
      (fun u _ a x hx => by rw [u.run_frame]; exact hx) (fun _ _ hx => hx) _ _ rfl
  · rfl

/-- An accepted or refused instruction ends after one step for each event it has still to emit, and before that is in progress, each
step having emitted one event. -/
theorem advance_iterate_accept (i : Instr) {s t : State} (hs : s.seq = none)
    (ht : t = (accept i s).finish) :
    State.advance^[t.trace.length - s.trace.length] (accept i s) = t ∧
    ∀ k, k < t.trace.length - s.trace.length →
      (∃ p, (State.advance^[k] (accept i s)).seq = some p ∧ p.cmd = i ∧ p.done = k) ∧
      (State.advance^[k] (accept i s)).trace = t.trace.take (s.trace.length + k) := by
  obtain ha | ha := accept_cases i s <;> rw [ha] at ht ⊢
  · rw [State.issue_finish] at ht
    have hcount : t.trace.length - s.trace.length = opCount (actsOf i s) := by
      rw [ht, State.putSeq_trace, runActs_trace_length, Nat.add_sub_cancel_left]
    rw [hcount, ht]
    refine ⟨advance_iterate_settle i 0 _ none s, fun k hk => ?_⟩
    have hbusy := advance_iterate_settle_busy i 0 _ none s k hk
    rwa [Nat.zero_add] at hbusy
  · rw [State.finish_of_idle s.refuseSeq hs] at ht
    subst ht
    simp only [State.refuseSeq_trace, Nat.sub_self]
    exact ⟨rfl, fun k hk => absurd hk (Nat.not_lt_zero k)⟩

/-- A run of a machine whose step answers a next state goes on from there. -/
theorem coreRun_succ (M : Host.Core) (k : Nat) {s t : M.State} (h : M.step s = .next t) :
    M.run (k + 1) s = M.run k t := by
  rw [Host.Core.run, h]

/-- With nothing from the host, steps are the sequencer's. -/
theorem run_of_host_nil (k : Nat) {s : State} (hh : s.host = []) :
    Sys2Proof.core.run k s = .next (State.advance^[k] s) := by
  induction k generalizing s with
  | zero => rfl
  | succ k ih =>
    exact (coreRun_succ Sys2Proof.core k (step_of_host_nil hh)).trans
      (ih (s.advance_host.trans hh))

/-- After its acceptance a posted command runs by steps of the sequencer. -/
theorem run_of_post {s : State} {w : CommandWord} {i : Instr} (hb : s.busy = false)
    (hh : s.host = [.post w]) (hd : decode (.command w) = .ok i) (k : Nat) :
    Sys2Proof.core.run (1 + k) s = .next (State.advance^[k] (accept i (s.putHost []))) := by
  rw [Nat.add_comm]
  exact (coreRun_succ Sys2Proof.core k (step_of_post hb hh hd)).trans
    (run_of_host_nil k (accept_host i (s.putHost [])))

/-- Settles O8: after the acceptance the sequencer runs the lines of the command one micro-operation a step. -/
theorem postedCommandCompletesAsCalled : Obligations.PostedCommandCompletesAsCalled := by
  intro s w i hb hh hd
  have hs : (s.putHost []).seq = none := s.busy_eq_false.1 hb
  have hrun := run_of_post hb hh hd
  obtain ⟨hend, hmid⟩ := advance_iterate_accept i hs rfl
  refine ⟨_, exec_eq_accept_finish i _ hs, (State.busy_eq_false _).2 (State.finish_seq _), ?_, ?_⟩
  · exact (hrun _).trans (congrArg _ hend)
  · intro k hk
    obtain ⟨⟨p, hp, hcmd, hdone⟩, htrace⟩ := hmid k hk
    exact ⟨_, hrun k, by rw [State.busy, hp]; rfl, ⟨p, hp, hcmd, hdone⟩, htrace⟩

/-- Settles O17: TXBYTE's lines, then `RESULT` from `ACK`. -/
theorem txByteCompletes : Obligations.TxByteCompletes := by
  intro s b nh hb hl
  have hs := s.busy_eq_false.1 hb
  have hexec := complete_issueOpen (.txByte b nh) (txByteActs b (!nh) ++ [.upd .resultFromAck])
    s hs hl
  rw [runActs_append, runActs_txByteActs] at hexec
  refine Eq.trans hexec ?_
  simp [runActs, Update.run, State.putResult, State.putSeq, hs]

/-! The status port. -/

/-- The one-bit fields of status word 0 (R35). -/
theorem State.statusWord_bits (s : State) :
    s.statusWord.getLsbD 0 = s.busy ∧ s.statusWord.getLsbD 1 = s.ready ∧
    s.statusWord.getLsbD 2 = s.calEn ∧ s.statusWord.getLsbD 3 = s.outValid ∧
    s.statusWord.getLsbD 4 = s.ack ∧ s.statusWord.getLsbD 7 = s.errSeq ∧
    s.statusWord.getLsbD 8 = s.errOp ∧ s.statusWord.getLsbD 9 = s.sclO ∧
    s.statusWord.getLsbD 10 = s.sdaO ∧ s.statusWord.getLsbD 11 = s.sdaOe := by
  simp only [State.statusWord, BitVec.getLsbD_setWidth, BitVec.getLsbD_append,
    BitVec.getLsbD_ofBool]
  simp

/-- The field `LINK` of status word 0 (R35). -/
theorem State.statusWord_link (s : State) : s.statusWord.extractLsb' 5 2 = s.link.code := by
  apply BitVec.eq_of_getLsbD_eq
  intro i hi
  simp only [State.statusWord, BitVec.getLsbD_extractLsb', BitVec.getLsbD_setWidth,
    BitVec.getLsbD_append, BitVec.getLsbD_ofBool]
  interval_cases i <;> simp

/-- The reserved bits of status word 0 (R35). -/
theorem State.statusWord_reserved (s : State) : s.statusWord.extractLsb' 12 20 = 0 := by
  apply BitVec.eq_of_getLsbD_eq
  intro i hi
  rw [BitVec.getLsbD_extractLsb', State.statusWord, BitVec.getLsbD_setWidth,
    BitVec.getLsbD_of_ge _ _ (by omega)]
  simp

/-- A register in the low bits of a status word, zeros between, another register above. -/
theorem getLsbD_gapped {a b : Nat} (g : Nat) (x : BitVec a) (y : BitVec b) (i : Nat) :
    ((x ++ 0#g ++ y).setWidth 32).getLsbD i =
      (decide (i < 32) && if i < b then y.getLsbD i else
        (!decide (i - b < g) && x.getLsbD (i - b - g))) := by
  simp only [BitVec.getLsbD_setWidth, BitVec.getLsbD_append, BitVec.getLsbD_zero]
  by_cases h : i - b < g <;> simp [h]

/-- The fields of status word 2 (R35). -/
theorem State.calWord_fields (s : State) :
    s.calWord.extractLsb' 0 12 = s.calLo ∧ s.calWord.extractLsb' 16 12 = s.calHi ∧
    s.calWord.extractLsb' 12 4 = 0 ∧ s.calWord.extractLsb' 28 4 = 0 := by
  have bits := getLsbD_gapped 4 s.calHi s.calLo
  refine ⟨?_, ?_, ?_, ?_⟩ <;>
    exact BitVec.eq_of_getLsbD_eq fun i hi => by
      rw [BitVec.getLsbD_extractLsb', State.calWord, bits]
      grind

/-- The fields of status word 4 (R35). -/
theorem State.configWord_fields (s : State) :
    s.configWord.extractLsb' 0 7 = s.devAddr ∧ s.configWord.extractLsb' 8 8 = s.regSel ∧
    s.configWord.getLsbD 7 = false ∧ s.configWord.extractLsb' 16 16 = 0 := by
  have bits := getLsbD_gapped 1 s.regSel s.devAddr
  refine ⟨?_, ?_, bits 7, ?_⟩ <;>
    exact BitVec.eq_of_getLsbD_eq fun i hi => by
      rw [BitVec.getLsbD_extractLsb', State.configWord, bits]
      grind

/-- The fields of status word 3 (R35). -/
theorem State.outWord_fields (s : State) :
    s.outWord.extractLsb' 0 12 = s.outSeen ∧ s.outWord.extractLsb' 12 20 = 0 := by
  refine ⟨?_, ?_⟩ <;>
    exact BitVec.eq_of_getLsbD_eq fun i hi => by
      rw [BitVec.getLsbD_extractLsb', State.outWord, BitVec.getLsbD_setWidth]
      grind
/-- What a read of `OUT_CODE` returns once it holds a value (R23). -/
theorem State.outSeen_of_outValid {s : State} (h : s.outValid = true) : s.outSeen = s.outCode :=
  if_pos h

/-- Settles O44: the step is the host's own note of the word, and each word has the fields of R35. -/
theorem statusReadReturnsTheWord : Obligations.StatusReadReturnsTheWord := by
  intro s n rest hh hn
  have read : ∀ v, (s.putHost rest).statusRead n = some v → ∃ k, step s = .next { s with
      host := rest, reads := s.reads ++ [⟨n, v⟩], outReads := k } :=
    fun v hv => ⟨_, step_of_read hh hv⟩
  obtain rfl | rfl | rfl | rfl | rfl : n = 0 ∨ n = 1 ∨ n = 2 ∨ n = 3 ∨ n = 4 := by omega
  · obtain ⟨k, hk⟩ := read s.statusWord rfl
    obtain ⟨h0, h1, h2, h3, h4, h7, h8, h9, h10, h11⟩ := s.statusWord_bits
    have hlink : s.statusWord.extractLsb' 5 2 =
        (match s.link with | .idle => 0 | .started => 1 | .stopped => 2) := by
      rw [s.statusWord_link]
      cases s.link <;> rfl
    exact ⟨_, k, hk, fun _ => ⟨h0, h1, h2, h3, h4, hlink, h7, h8, h9, h10, h11,
      s.statusWord_reserved⟩, by simp, by simp, by simp, by simp⟩
  · obtain ⟨k, hk⟩ := read s.result rfl
    exact ⟨_, k, hk, by simp, fun _ => rfl, by simp, by simp, by simp⟩
  · obtain ⟨k, hk⟩ := read s.calWord rfl
    exact ⟨_, k, hk, by simp, by simp, fun _ => s.calWord_fields, by simp, by simp⟩
  · obtain ⟨k, hk⟩ := read s.outWord rfl
    obtain ⟨hout, hreserved⟩ := s.outWord_fields
    exact ⟨_, k, hk, by simp, by simp, by simp,
      fun _ => ⟨fun h => hout.trans (State.outSeen_of_outValid h), hreserved⟩, by simp⟩
  · obtain ⟨k, hk⟩ := read s.configWord rfl
    exact ⟨_, k, hk, by simp, by simp, by simp, by simp, fun _ => s.configWord_fields⟩

/-- Settles O14: a level in output mode under each drive style. -/
theorem pinsCarryTheLineRegisters : Obligations.PinsCarryTheLineRegisters := by
  intro s
  have low : driveLevel Config.driveStyle false = .driven false := by
    cases Config.driveStyle <;> rfl
  have high : driveLevel Config.driveStyle true = .driven true ∨
      driveLevel Config.driveStyle true = .released := by
    cases Config.driveStyle
    · exact .inr rfl
    · exact .inl rfl
  refine ⟨fun h => ?_, fun h => ?_, fun hoe h => ?_, fun hoe h => ?_, fun hoe => ?_⟩
  · rw [State.clockLine, h, low]
  · rw [State.clockLine, h]
    exact high
  · rw [State.dataLine, hoe, h, if_pos rfl, low]
  · rw [State.dataLine, hoe, h, if_pos rfl]
    exact high
  · rw [State.dataLine, hoe]
    rfl

/-- Settles O46: the step is `resetNow`, which gives every register its value of R43. -/
theorem resetRestoresEveryRegister : Obligations.ResetRestoresEveryRegister := by
  intro s d r rest hh
  refine ⟨_, step_of_reset hh, ?_⟩
  simp [State.resetNow, State.resetWith, State.busy, Config.calLoDefault, Config.calHiDefault]

/-- Settles O47: the fields of `resetWith`. -/
theorem resetStateValues : Obligations.ResetStateValues := by
  simp [Obligations.ResetStateValues, State.reset, State.resetWith, State.busy,
    Config.calLoDefault, Config.calHiDefault]

end Sys2Proof.Machine


/-! PROOF. The two bytes of a code and WRITE_CODE run whole (R65, R152); what a command emits and leaves, whatever the trace before it
(R72) and whatever the environment answers (R76, R135, R154). -/

namespace Sys2Proof.Machine

/-! The bytes of a code (R65). -/

theorem lowByte_toNat (c : Code) : (lowByte c).toNat = c.toNat % 16 * 16 := by
  have h : (lowByte c).toNat = c.toNat <<< 4 % 4096 % 256 := by
    rw [lowByte, BitVec.toNat_setWidth, BitVec.toNat_shiftLeft]
    rfl
  omega

theorem highByte_toNat (c : Code) : (highByte c).toNat = c.toNat / 16 := by
  have h : (highByte c).toNat = c.toNat >>> 4 % 256 := by
    rw [highByte, BitVec.toNat_setWidth, BitVec.toNat_ushiftRight]
  have := c.toNat_lt
  omega

/-- The low nibble of a word above four zeros. -/
theorem lowNibbleAboveZeros_toNat {w : Nat} (v : BitVec w) :
    (v.extractLsb' 0 4 ++ 0#4).toNat = v.toNat % 16 * 16 := by
  rw [BitVec.toNat_append, BitVec.extractLsb'_toNat, BitVec.toNat_zero, Nat.or_zero, Nat.shiftLeft_eq,
    Nat.shiftRight_zero]

theorem lowByte_eq (c : Code) : lowByte c = c.extractLsb' 0 4 ++ 0#4 :=
  BitVec.eq_of_toNat_eq (by rw [lowByte_toNat, lowNibbleAboveZeros_toNat])

theorem highByte_eq (c : Code) : highByte c = c.extractLsb' 4 8 := by
  apply BitVec.eq_of_toNat_eq
  have := c.toNat_lt
  rw [highByte_toNat, BitVec.extractLsb'_toNat, Nat.shiftRight_eq_div_pow]
  omega

/-- Settles O24: the bytes as numbers are `16 (c mod 16)` and `c / 16`. -/
theorem codeBytesAreLeftAligned : Obligations.CodeBytesAreLeftAligned := by
  intro c
  refine ⟨lowByte_eq c, highByte_eq c, ?_, ?_⟩
  · rw [lowByte_toNat, highByte_toNat]
    omega
  · rw [lowByte_toNat, Nat.mul_mod_left]

/-- The low byte of a masked operand is that of the operand. -/
theorem lowByte_maskCode (code : BitVec 16) :
    lowByte (maskCode code) = code.extractLsb' 0 4 ++ 0#4 := by
  apply BitVec.eq_of_toNat_eq
  rw [lowByte_toNat, maskCode, codeField_toNat, lowNibbleAboveZeros_toNat]
  omega

/-- The high byte of a masked operand is bits 11:4 of the operand. -/
theorem highByte_maskCode (code : BitVec 16) :
    highByte (maskCode code) = code.extractLsb' 4 8 := by
  apply BitVec.eq_of_toNat_eq
  rw [highByte_toNat, maskCode, codeField_toNat, BitVec.extractLsb'_toNat,
    Nat.shiftRight_eq_div_pow]
  omega

/-! An instruction given to an idle master, by its link state (R130, R134, R157). -/

/-- An instruction in a link state it is refused in: `ERR_SEQ` and nothing else. -/
theorem exec_of_refused {i : Instr} {s : State} (hs : s.seq = none)
    (hr : refusedIn i s.link = true) : exec i s = .next s.refuseSeq := by
  rw [exec_of_idle i s hs, if_pos hr]

/-- An instruction in a link state it is accepted in: its lines are run. -/
theorem exec_of_accepted {i : Instr} {s : State} (hs : s.seq = none)
    (hr : refusedIn i s.link = false) :
    exec i s = .next ((runActs (actsOf i s) none s).2.putSeq none) := by
  rw [exec_of_idle i s hs, if_neg (ne_true_of_eq_false hr)]

/-! WRITE_CODE (R152). -/

/-- WRITE_CODE's lines, run: one closed transaction of four bytes, the code in `OUT_CODE` and its current in `RESULT`. The bytes are those
of the state `s` in which the command was accepted. -/
theorem runActs_writeCodeActs (s : State) (c : Code) (a : Option Bool) (x : State) :
    ∃ a', runActs (writeCodeActs s c) a x =
      (a', { x.closedRun 4
          (writeEvents s.addrByte s.regSel (lowByte c) (highByte c) x.sampleAt) with
        outCode := c, outValid := true, result := toCurrent c }) := by
  obtain ⟨a', h⟩ := runActs_transaction
    (writeBytes s.addrByte s.regSel (lowByte c) (highByte c)) (by simp [writeBytes]) a (x.putOut c)
  refine ⟨a', ?_⟩
  rw [writeCodeActs, runActs_append, runActs_append]
  rw [show runActs [.upd (.setOut c)] a x = (a, x.putOut c) from rfl, h]
  rfl

/-- Settles O21: WRITE_CODE's lines on the masked operand. -/
theorem writeCodeCompletes : Obligations.WriteCodeCompletes := by
  intro s code hb hl
  have hs := s.busy_eq_false.1 hb
  obtain ⟨a', hrun⟩ := runActs_writeCodeActs s (maskCode code) none s
  have hexec : exec (.writeCode code) s =
      .next ((runActs (writeCodeActs s (maskCode code)) none s).2.putSeq none) :=
    exec_of_accepted hs (decide_eq_false hl)
  rw [hexec, hrun, lowByte_maskCode, highByte_maskCode, State.putSeq_none _ (by exact hs), toCurrent,
    maskCode, codeField_toNat, codeField_eq]
  rfl

/-! What a command does whatever the trace before it (R72). -/

/-- A meaning appends some events to the trace, and does the same and appends the same whatever the trace was. -/
theorem exec_trace {i : Instr} {s t : State} (h : exec i s = .next t) :
    ∃ es, t.trace = s.trace ++ es ∧
      ∀ tr, exec i { s with trace := tr } = .next { t with trace := tr ++ es } := by
  obtain ⟨es, htrace, hrun⟩ := runActs_trace (actsOf i s) none s
  have hacts : ∀ tr, actsOf i { s with trace := tr } = actsOf i s := fun tr => by cases i <;> rfl
  obtain ⟨hb, rfl⟩ | ⟨hs, hr, rfl⟩ | ⟨hs, hr, rfl⟩ := exec_inversion h
  · exact ⟨[], by simp, fun tr => by simpa using exec_of_busy i { t with trace := tr } hb⟩
  · refine ⟨[], by simp, fun tr => ?_⟩
    rw [exec_of_refused (s := { s with trace := tr }) hs hr, List.append_nil]
    rfl
  · refine ⟨es, htrace, fun tr => ?_⟩
    rw [exec_of_accepted (s := { s with trace := tr }) hs hr, hacts, hrun]
    rfl

/-- Settles O59: the events of `exec_trace` are the new ones. -/
theorem tracesConcatenate : Obligations.TracesConcatenate := by
  intro i s t tr h
  obtain ⟨es, htrace, hany⟩ := exec_trace h
  rw [State.newEvents_eq s t es htrace]
  exact ⟨htrace, hany tr⟩

/-! What a command does whatever the environment answers (R76, R135, R154). -/

/-- Everything an instruction's meaning does to the state keeps the relation between two runs of it, whatever each has sampled. -/
structure KeptByBothRuns (i : Instr) (R : State → State → Prop) : Prop where
  op : ∀ (m : MicroOp) a b x y, R x y → R (m.run a x).2 (m.run b y).2
  upd : ∀ u, mayWrite i u → ∀ a b x y, R x y → R (u.run a x) (u.run b y)
  seq : ∀ p x y, R x y → R (State.putSeq x p) (State.putSeq y p)
  refuseSeq : ∀ x y, R x y → R (State.refuseSeq x) (State.refuseSeq y)

theorem KeptByBothRuns.runActs {i : Instr} {R : State → State → Prop} (hR : KeptByBothRuns i R)
    {acts : List Act} (hacts : ∀ u, .upd u ∈ acts → mayWrite i u) (a b : Option Bool)
    {x y : State} (h : R x y) : R (runActs acts a x).2 (runActs acts b y).2 := by
  induction acts generalizing a b x y with
  | nil => exact h
  | cons act acts ih =>
    have hrest : ∀ u, .upd u ∈ acts → mayWrite i u := fun u hu =>
      hacts u (List.mem_cons_of_mem _ hu)
    cases act with
    | op m => exact ih hrest _ _ (hR.op m a b x y h)
    | upd u => exact ih hrest _ _ (hR.upd u (hacts u List.mem_cons_self) a b x y h)

/-- The state with other answers of the environment to come: those it has fixed, and the place in its free ones (R30). -/
def State.withAnswers (s : State) (answers : List Bool) (k : Nat) : State :=
  { s with samples := answers, drawn := k }

/-- An instruction's lines and its refusal do not depend on the coming samples, so two runs that differ in these keep what each of its
writes keeps. -/
theorem KeptByBothRuns.exec {i : Instr} {R : State → State → Prop} (hR : KeptByBothRuns i R)
    {s t u : State} {answers : List Bool} {k : Nat} (ht : exec i s = .next t)
    (hu : exec i (s.withAnswers answers k) = .next u) (hs : R s (s.withAnswers answers k)) :
    R t u := by
  have hacts : actsOf i (s.withAnswers answers k) = actsOf i s := by cases i <;> rfl
  obtain ⟨hb, rfl⟩ | ⟨hseq, hr, rfl⟩ | ⟨hseq, hr, rfl⟩ := exec_inversion ht
  · rw [exec_of_busy i (t.withAnswers answers k) hb] at hu
    injection hu with hu
    exact hu ▸ hs
  · rw [exec_of_refused (s := s.withAnswers answers k) hseq hr] at hu
    injection hu with hu
    exact hu ▸ hR.refuseSeq _ _ hs
  · rw [exec_of_accepted (s := s.withAnswers answers k) hseq hr, hacts] at hu
    injection hu with hu
    exact hu ▸ hR.seq _ _ _ (hR.runActs (fun u hu => mayWrite_of_mem_actsOf hu) _ _ hs)

/-- Two states of one course: all that the environment's answers can change is the levels sampled in the trace, `ACK`, the environment's
fields, `RESULT` and `READY`. -/
def State.SameCourse (x y : State) : Prop :=
  ∃ tr ack samples drawn result ready,
    y = { x with
      trace := tr, ack := ack, samples := samples, drawn := drawn
      result := result, ready := ready } ∧
    tr.map Event.unsampled = x.trace.map Event.unsampled

/-- Each write of a meaning keeps to the course: a sampled level reaches `ACK` alone, and `ACK` reaches `RESULT` and `READY` alone. -/
theorem keptByBothRuns_sameCourse (i : Instr) : KeptByBothRuns i State.SameCourse where
  op := by
    rintro m a b x y ⟨tr, ack, samples, drawn, result, ready, rfl, htr⟩
    cases m <;> exact ⟨_, _, _, _, _, _, rfl, by simp [MicroOp.run, htr, Event.unsampled]⟩
  upd := by
    rintro u - a b x y ⟨tr, ack, samples, drawn, result, ready, rfl, htr⟩
    cases u with
    | probeStatus =>
      rw [Update.run_probeStatus, Update.run_probeStatus]
      exact ⟨_, _, _, _, _, _, rfl, htr⟩
    | _ => exact ⟨_, _, _, _, _, _, rfl, htr⟩
  seq := by
    rintro p x y ⟨tr, ack, samples, drawn, result, ready, rfl, htr⟩
    exact ⟨_, _, _, _, _, _, rfl, htr⟩
  refuseSeq := by
    rintro x y ⟨tr, ack, samples, drawn, result, ready, rfl, htr⟩
    exact ⟨_, _, _, _, _, _, rfl, htr⟩

/-- No write of an instruction other than PROBE and TXBYTE forms `RESULT` from `ACK`. -/
theorem keptByBothRuns_result {i : Instr} (htx : ∀ b nh, i ≠ .txByte b nh) (hprobe : i ≠ .probe) :
    KeptByBothRuns i fun x y => y.result = x.result where
  op m a b x y h := by
    rw [m.run_frame a x, m.run_frame b y]
    exact h
  upd u hu a b x y h := by
    cases u with
    | setResult v => rfl
    | resultFromAck =>
      obtain ⟨byte, nh, rfl⟩ := hu
      exact absurd rfl (htx byte nh)
    | probeStatus => exact absurd hu hprobe
    | _ => exact h
  seq _ _ _ h := h
  refuseSeq _ _ h := h

/-- Settles O60: both runs keep to one course, and `READY` is written by PROBE alone. -/
theorem acknowledgmentsChangeNoCourse : Obligations.AcknowledgmentsChangeNoCourse := by
  intro i s t u answers k ht hu
  obtain ⟨tr, ack, samples, drawn, result, ready, hcourse, htr⟩ :=
    (keptByBothRuns_sameCourse i).exec ht hu ⟨_, _, _, _, _, _, rfl, rfl⟩
  refine ⟨?_, ?_, fun htx hprobe => ?_, fun hprobe => ?_⟩
  · rw [State.newEvents, State.newEvents, List.map_drop, List.map_drop, hcourse, htr]
  · rw [hcourse]
  · exact (keptByBothRuns_result htx hprobe).exec ht hu rfl
  · exact ((readyWrittenOnlyByProbe i _ u hu).1 hprobe).trans
      ((readyWrittenOnlyByProbe i s t ht).1 hprobe).symm

end Sys2Proof.Machine


/-! PROOF. The decoder by opcode and by wire pattern, and a decoded word as what the step runs (R80 to R98). -/

namespace Sys2Proof

/-! A command word by its opcode (R80 to R88). -/

section
variable {w : CommandWord}

theorem decodeCommand_of_probe (h : opField w = 0x1) : decodeCommand w = .ok .probe := by
  simp [decodeCommand, h]

theorem decodeCommand_of_setCal (h : opField w = 0x2) :
    decodeCommand w = .ok (.setCal (argLow w) (argHigh w)) := by
  simp [decodeCommand, h]

theorem decodeCommand_of_writeCode (h : opField w = 0x3) :
    decodeCommand w = .ok (.writeCode (argLow w)) := by
  simp [decodeCommand, h]

theorem decodeCommand_of_writeCurrent (h : opField w = 0x4) :
    decodeCommand w = .ok (.writeCurrent (argField w)) := by
  simp [decodeCommand, h]

theorem decodeCommand_of_store (h : opField w = 0x5) : decodeCommand w = .ok .store := by
  simp [decodeCommand, h]

theorem decodeCommand_of_start (h : opField w = 0x6) : decodeCommand w = .ok .start := by
  simp [decodeCommand, h]

theorem decodeCommand_of_stop (h : opField w = 0x7) : decodeCommand w = .ok .stop := by
  simp [decodeCommand, h]

theorem decodeCommand_of_txByte (h : opField w = 0x8) :
    decodeCommand w = .ok (.txByte (argByte w) (argNoHold w)) := by
  simp [decodeCommand, h]

end

/-- The opcode as a number is the word's upper four bits. -/
theorem opField_eq_iff {w : CommandWord} {o : BitVec 4} :
    opField w = o ↔ w.toNat / 2 ^ 32 = o.toNat := by
  have hlt := w.isLt
  rw [← BitVec.toNat_inj, opField, BitVec.extractLsb'_toNat, Nat.shiftRight_eq_div_pow,
    Nat.mod_eq_of_lt (by omega)]

/-- A reserved opcode spells no command (R88). -/
theorem decodeCommand_of_reserved {w : CommandWord}
    (h : w.toNat / 2 ^ 32 = 0 ∨ 9 ≤ w.toNat / 2 ^ 32) :
    decodeCommand w = .error (.reservedOpcode (opField w)) := by
  have hne : ∀ o : BitVec 4, 1 ≤ o.toNat → o.toNat ≤ 8 → opField w ≠ o := by
    intro o hlo hhi ho
    have := opField_eq_iff.1 ho
    omega
  simp [decodeCommand, hne]

/-- The bit above the byte of a TXBYTE operand (R86). -/
theorem bitAboveByte_getLsbD (nh : Bool) (b : Byte) :
    ((BitVec.ofBool nh ++ b).setWidth 32).getLsbD 8 = nh := by
  rw [BitVec.getLsbD_setWidth, BitVec.getLsbD_append]
  cases nh <;> rfl

/-! A wire pattern by its symbols (R91 to R94). -/

@[simp] theorem addrByteOf_getElem_zero (a : BitVec 7) : (addrByteOf a)[0] = false :=
  addrByteOf_zero a

theorem decodeWire_addrByte (a : BitVec 7) :
    decodeWire [.byte (addrByteOf a)] = .ok (.addrByte a) := by
  simp [decodeWire, addrOf_addrByteOf]

theorem decodeWire_probeFrame {a : BitVec 7} (ha : a ≠ 1) :
    decodeWire [.s, .byte (addrByteOf a), .p] = .ok (.probeFrame a) := by
  simp [decodeWire, addrByteOf_ne_storeHead a ha, addrOf_addrByteOf]

theorem decodeWire_writeCodeFrame (a : BitVec 7) (r : Byte) (l : BitVec 4) (h : Byte) :
    decodeWire [.s, .byte (addrByteOf a), .byte r, .byte (l ++ 0#4), .byte h, .p] =
      .ok (.writeCodeFrame a r l h) := by
  have hzero : (l ++ 0#4).extractLsb' 0 4 = 0 := BitVec.extractLsb'_append_eq_right
  have hnibble : (l ++ 0#4).extractLsb' 4 4 = l := BitVec.extractLsb'_append_eq_left
  simp [decodeWire, addrOf_addrByteOf, hzero, hnibble]

theorem decodeWire_storeFrame3 (a : BitVec 7) :
    decodeWire (.s :: .byte (addrByteOf a) ::
      (List.replicate Config.storeCmd2Count (.byte Config.storeCmd2) ++ [.p])) =
      .ok (.storeFrame3 a) := by
  simp [decodeWire, isStoreTail, Config.storeCmd2Count, List.replicate, addrOf_addrByteOf]

/-- Settles O2: the operand fields of a composed word, and the symbols of each pattern. -/
theorem decodeEncodeRoundTrip : Obligations.DecodeEncodeRoundTrip := by
  intro i hi
  cases i with
  | probe => exact decodeCommand_of_probe (opField_commandWord _ _)
  | setCal lo hi' =>
    refine (decodeCommand_of_setCal (opField_commandWord _ _)).trans ?_
    rw [argLow_commandWord, argHigh_commandWord, pair_low, pair_high]
  | writeCode code =>
    refine (decodeCommand_of_writeCode (opField_commandWord _ _)).trans ?_
    rw [argLow_commandWord, BitVec.extractLsb'_setWidth_of_le (by omega),
      BitVec.extractLsb'_eq_self]
  | writeCurrent x =>
    refine (decodeCommand_of_writeCurrent (opField_commandWord _ _)).trans ?_
    rw [argField_commandWord]
  | store => exact decodeCommand_of_store (opField_commandWord _ _)
  | start => exact decodeCommand_of_start (opField_commandWord _ _)
  | stop => exact decodeCommand_of_stop (opField_commandWord _ _)
  | txByte b nh =>
    refine (decodeCommand_of_txByte (opField_commandWord _ _)).trans ?_
    rw [argByte_commandWord, argNoHold_commandWord, bitAboveByte_getLsbD,
      BitVec.extractLsb'_setWidth_of_le (by omega), BitVec.extractLsb'_append_eq_right]
  | addrByte a => exact decodeWire_addrByte a
  | probeFrame a => exact decodeWire_probeFrame (by simpa [Instr.wellFormed] using hi)
  | writeCodeFrame a r l h => exact decodeWire_writeCodeFrame a r l h
  | storeFrame1 => rfl
  | storeFrame2 => rfl
  | storeFrame3 a => exact decodeWire_storeFrame3 a

/-- Settles O3: each clause is the decoder's equation for its opcode, the fields written as numbers. -/
theorem decodeReadsContiguousFields : Obligations.DecodeReadsContiguousFields := by
  intro w
  have hhigh : argHigh w = BitVec.ofNat 16 (w.toNat / 2 ^ 16) := by
    rw [← Nat.shiftRight_eq_div_pow]
    rfl
  have hnh : argNoHold w = decide (w.toNat / 2 ^ 8 % 2 = 1) := by
    rw [argNoHold, BitVec.getLsbD, Nat.testBit_eq_decide_div_mod_eq]
  refine ⟨fun h => ?_, fun h => ?_, fun h => ?_, fun h => ?_, fun h => ?_, fun h => ?_,
    fun h => ?_, fun h => ?_⟩
  · exact decodeCommand_of_probe (opField_eq_iff.2 h)
  · exact hhigh ▸ decodeCommand_of_setCal (opField_eq_iff.2 h)
  · exact decodeCommand_of_writeCode (opField_eq_iff.2 h)
  · exact decodeCommand_of_writeCurrent (opField_eq_iff.2 h)
  · exact decodeCommand_of_store (opField_eq_iff.2 h)
  · exact decodeCommand_of_start (opField_eq_iff.2 h)
  · exact decodeCommand_of_stop (opField_eq_iff.2 h)
  · exact hnh ▸ decodeCommand_of_txByte (opField_eq_iff.2 h)

/-- Settles O1: the decoder run on each word. -/
theorem specWordsDecode : Obligations.SpecWordsDecode := by
  refine ⟨?_, ?_, ?_, ?_, ?_, ?_, ?_, ?_, ?_, ?_, ?_, ?_, ?_⟩ <;> decide

end Sys2Proof

namespace Sys2Proof.Machine

/-- A word of a reserved opcode, called or posted on an idle master, is refused (R88). -/
theorem step_of_reserved {s : State} {w : CommandWord} {e : DecodeError} {rest : List HostAct}
    (hb : s.busy = false) (hh : s.host = .call w :: rest ∨ s.host = .post w :: rest)
    (hd : decode (.command w) = .error e) : step s = .next (s.putHost rest).refuseOp := by
  obtain hh | hh := hh <;> simp [step, State.fetch, hh, hb, takeCall, takePost, hd]

/-- Settles O4: the decoder on a reserved opcode, and its clause for each assigned one. -/
theorem reservedOpcodeOnlySetsErrOp : Obligations.ReservedOpcodeOnlySetsErrOp := by
  refine ⟨fun s w rest hb hh h => step_of_reserved hb hh (decodeCommand_of_reserved h),
    fun w hlo hhi => ?_⟩
  obtain ⟨h1, h2, h3, h4, h5, h6, h7, h8⟩ := decodeReadsContiguousFields w
  generalize w.toNat / 2 ^ 32 = op at *
  interval_cases op
  · exact ⟨_, h1 rfl, rfl⟩
  · exact ⟨_, h2 rfl, rfl⟩
  · exact ⟨_, h3 rfl, rfl⟩
  · exact ⟨_, h4 rfl, rfl⟩
  · exact ⟨_, h5 rfl, rfl⟩
  · exact ⟨_, h6 rfl, rfl⟩
  · exact ⟨_, h7 rfl, rfl⟩
  · exact ⟨_, h8 rfl, rfl⟩

/-- What an idle master runs where the host presents a spelling (log 9). -/
theorem step_present {s : State} {e : Encoded} {i : Instr} (hd : decode e = .ok i) :
    step (s.present (presentation e)) = exec i (s.putSeq none) := by
  cases e with
  | command w => exact step_of_call (rest := s.host) rfl rfl hd
  | wire f => exact step_of_frame (rest := s.host) rfl rfl hd

/-- A table word that decodes to an instruction stands for a spelling of it. -/
theorem tableEncoded_of_decodeTableWord {nbits w : Nat} {i : Instr}
    (h : decodeTableWord nbits w = some i) :
    ∃ e, tableEncoded nbits w = some e ∧ decode e = .ok i := by
  unfold decodeTableWord at h
  split at h
  · cases h
  · next e he =>
    split at h
    · next j hd => exact ⟨e, he, hd.trans (congrArg _ (Option.some.inj h))⟩
    · cases h

/-- Settles O5: the spelling placed is the one the table word decodes by. -/
theorem tableWordIsWhatTheStepRuns : Obligations.TableWordIsWhatTheStepRuns := by
  intro s nbits w i h
  obtain ⟨e, he, hd⟩ := tableEncoded_of_decodeTableWord h
  rw [State.withFetchWord, he]
  exact step_present hd

end Sys2Proof.Machine


/-! PROOF. The wire patterns and PROBE and STORE run whole, the commands as their frames, and what the three bus commands are read as on
the lines (R90 to R95, R150 to R153). -/

namespace Sys2Proof.Machine

/-! A wire pattern sent by itself (R91 to R94, log 5). -/

/-- Settles O34: the lines of one byte cell, or the refusal. -/
theorem addrByteCompletes : Obligations.AddrByteCompletes := by
  intro s a hb
  have hs := s.busy_eq_false.1 hb
  refine ⟨fun hl => ?_, fun hl => exec_of_refused hs (decide_eq_true hl)⟩
  have hexec : exec (.addrByte a) s =
      .next ((runActs (txByteActs (addrByteOf a) true) none s).2.putSeq none) :=
    exec_of_accepted hs (decide_eq_false (not_not_intro hl))
  rw [hexec, runActs_txByteActs, State.putSeq_none _ (by exact hs), addrByteOf_zero]
  rfl

/-- An instruction whose lines are one transaction, accepted by an idle master: the closed run of its bytes. -/
theorem exec_of_transaction {i : Instr} {s : State} {bytes : List (Byte × Bool)}
    (hs : s.seq = none) (hr : refusedIn i s.link = false)
    (hacts : actsOf i s = transactionActs bytes) (hne : bytes ≠ []) :
    exec i s = .next
      (s.closedRun bytes.length (transactionEvents (cellsFrom s.sampleAt 0 bytes))) := by
  obtain ⟨a', hrun⟩ := runActs_transaction bytes hne none s
  rw [exec_of_accepted hs hr, hacts, hrun, State.putSeq_none _ (by exact hs)]

/-- Settles O35: the lines of each frame are its one transaction. -/
theorem framesComplete : Obligations.FramesComplete := by
  intro s a r h l hb hl
  have hs := s.busy_eq_false.1 hb
  have hr : decide (s.link = .started) = false := decide_eq_false hl
  refine ⟨?_, ?_, ?_, ?_, ?_⟩
  · exact exec_of_transaction (bytes := probeBytes (addrByteOf a)) hs hr rfl (by simp [probeBytes])
  · exact exec_of_transaction (bytes := writeBytes (addrByteOf a) r (l ++ 0#4) h) hs hr rfl
      (by simp [writeBytes])
  · exact exec_of_transaction (bytes := storeBytes1) hs hr rfl (by simp [storeBytes1])
  · exact exec_of_transaction (bytes := storeBytes2) hs hr rfl (by simp [storeBytes2])
  · exact exec_of_transaction (bytes := storeBytes3 (addrByteOf a)) hs hr rfl (by simp [storeBytes3])

/-! PROBE and STORE (R151, R153). -/

/-- Settles O20: one transaction, then the status formed from its acknowledgment. -/
theorem probeCompletes : Obligations.ProbeCompletes := by
  intro s hb hl
  have hs := s.busy_eq_false.1 hb
  obtain ⟨a', hrun⟩ := runActs_transaction (probeBytes s.addrByte) (by simp [probeBytes]) none s
  have hexec : exec .probe s = .next ((runActs (probeActs s) none s).2.putSeq none) :=
    exec_of_accepted hs (decide_eq_false hl)
  rw [hexec, probeActs, runActs_append, hrun, runActs, runActs, Update.run_probeStatus,
    State.putSeq_none _ (by exact hs)]
  rfl

/-- A transaction after a closed run makes it a longer one: it is acknowledged as the samples past the run say. -/
theorem runActs_transaction_closedRun (bytes : List (Byte × Bool)) (hne : bytes ≠ [])
    (a : Option Bool) (s : State) (n : Nat) (es : List Event) :
    ∃ a', runActs (transactionActs bytes) a (s.closedRun n es) =
      (a', s.closedRun (n + bytes.length)
        (es ++ transactionEvents (cellsFrom (fun k => s.sampleAt (n + k)) 0 bytes))) := by
  obtain ⟨a', hrun⟩ := runActs_transaction bytes hne a (s.closedRun n es)
  refine ⟨a', ?_⟩
  rw [hrun, State.closedRun_closedRun,
    cellsFrom_shift _ (fun k => s.sampleAt (n + k)) 0 0 bytes fun k => s.sampleAt_closedRun n es _]

/-- An event after a closed run is one more of its events. -/
theorem State.emit_closedRun (s : State) (n : Nat) (es : List Event) (e : Event) :
    (s.closedRun n es).emit e = s.closedRun n (es ++ [e]) := by
  simp [State.closedRun, State.busRun, State.emit]

/-- STORE's lines, run: the three transactions in order, then the settle delay. -/
theorem runActs_storeActs (s : State) (a : Option Bool) :
    ∃ a', runActs (storeActs s) a s = (a', s.closedRun 12 (storeEvents s.addrByte s.sampleAt)) := by
  obtain ⟨a1, h1⟩ := runActs_transaction storeBytes1 (by simp [storeBytes1]) a s
  obtain ⟨a2, h2⟩ := runActs_transaction_closedRun storeBytes2 (by simp [storeBytes2]) a1 s _ _
  obtain ⟨a3, h3⟩ := runActs_transaction_closedRun (storeBytes3 s.addrByte) (by simp [storeBytes3])
    a2 s _ _
  refine ⟨a3, ?_⟩
  rw [storeActs, runActs_append, runActs_append, runActs_append, h1, h2, h3]
  exact congrArg (Prod.mk a3) (s.emit_closedRun _ _ _)

/-- Settles O22: STORE's lines run whole. -/
theorem storeCompletes : Obligations.StoreCompletes := by
  intro s hb hl
  have hs := s.busy_eq_false.1 hb
  obtain ⟨a', hrun⟩ := runActs_storeActs s none
  have hexec : exec .store s = .next ((runActs (storeActs s) none s).2.putSeq none) :=
    exec_of_accepted hs (decide_eq_false hl)
  rw [hexec, hrun, State.putSeq_none _ (by exact hs)]
  rfl

/-! The commands as their frames (R92 to R94, R151 to R153). -/

/-- A frame sent after a closed run makes it a longer one. -/
theorem exec_of_transaction_closedRun {i : Instr} {s : State} {bytes : List (Byte × Bool)}
    (n : Nat) (es : List Event) (hs : s.seq = none) (hr : refusedIn i .stopped = false)
    (hacts : actsOf i (s.closedRun n es) = transactionActs bytes) (hne : bytes ≠ []) :
    exec i (s.closedRun n es) = .next (s.closedRun (n + bytes.length)
      (es ++ transactionEvents (cellsFrom (fun k => s.sampleAt (n + k)) 0 bytes))) := by
  obtain ⟨a', hrun⟩ := runActs_transaction_closedRun bytes hne none s n es
  rw [exec_of_accepted (s := s.closedRun n es) hs hr, hacts, hrun,
    State.putSeq_none _ (by exact hs)]

/-- STORE is its three frames in order, then the settle delay. -/
theorem store_eq_frames {s : State} (hb : s.busy = false) (hl : s.link ≠ .started) :
    ∃ t u v, exec .storeFrame1 s = .next t ∧ exec .storeFrame2 t = .next u ∧
      exec (.storeFrame3 s.devAddr) u = .next v ∧
      exec .store s = .next { v with trace := v.trace ++ [.hold 10000000] } := by
  have hs := s.busy_eq_false.1 hb
  refine ⟨_, _, _,
    exec_of_transaction (bytes := storeBytes1) hs (decide_eq_false hl) rfl (by simp [storeBytes1]),
    exec_of_transaction_closedRun (bytes := storeBytes2) _ _ hs rfl rfl (by simp [storeBytes2]),
    exec_of_transaction_closedRun (bytes := storeBytes3 s.addrByte) _ _ hs rfl rfl
      (by simp [storeBytes3]), ?_⟩
  rw [storeCompletes s hb hl]
  exact congrArg Host.Outcome.next (s.emit_closedRun 12 _ (.hold Config.tStore)).symm

/-- Settles O37: each command's closed form beside that of its frames. -/
theorem commandsSendTheirFrames : Obligations.CommandsSendTheirFrames := by
  intro s hb hl
  refine ⟨?_, fun code => ?_, store_eq_frames hb hl⟩
  · obtain ⟨hframe, -⟩ := framesComplete s s.devAddr 0 0 0 hb hl
    exact ⟨_, hframe, probeCompletes s hb hl⟩
  · obtain ⟨-, hframe, -⟩ := framesComplete s s.devAddr s.regSel (code.extractLsb' 4 8)
      (code.extractLsb' 0 4) hb hl
    exact ⟨_, hframe, writeCodeCompletes s code hb hl⟩

/-! The bus commands read off the lines (R39, R90). -/

/-- A run from a quiet, closed state that leaves both lines high is read as its events are off high lines. -/
theorem read_newEvents_of_closed {s t : State} {es : List Event} {ms : List WireMark}
    (h : s.linesOk = true) (hl : s.link ≠ .started) (htrace : t.trace = s.trace ++ es)
    (hwire : t.wire = ⟨true, true, true, none⟩)
    (hread : Wire.read ⟨true, true, true, none⟩ es = (⟨true, true, true, none⟩, ms)) :
    s.wire.read (t.newEvents s) = (t.wire, ms) := by
  rw [State.newEvents_eq s t es htrace, s.wire_closed h hl, hread, hwire]

/-- STORE read off lines that are both high: its three frames and nothing of the settle delay. -/
theorem Wire.read_storeEvents (a : Byte) (ack : Nat → Bool) :
    Wire.read ⟨true, true, true, none⟩ (storeEvents a ack) = (⟨true, true, true, none⟩,
      frameMarks [(0x02, ack 0)] ++ frameMarks [(0x10, ack 1), (0x03, ack 2)] ++
      frameMarks
        [(a, ack 3), (0x00, ack 4), (0x00, ack 5), (0x00, ack 6), (0x00, ack 7), (0x00, ack 8),
         (0x00, ack 9), (0x00, ack 10), (0x00, ack 11)]) := by
  have hhold : ∀ w : Wire, w.read [.hold Config.tStore] = (w, []) := fun _ => rfl
  simp only [storeEvents, storeEvents1, storeEvents2, storeEvents3, Wire.read_append,
    Wire.read_transactionEvents, hhold, List.append_nil]
  rfl

/-- Settles O40: the closed form of each command, its transactions read as their frames. -/
theorem framesReadOffTheLines : Obligations.FramesReadOffTheLines := by
  rintro s a r lo hi code hb h hl rfl rfl rfl rfl
  refine ⟨⟨_, probeCompletes s hb hl, ?_⟩, ⟨_, writeCodeCompletes s code hb hl, ?_⟩,
    ⟨_, storeCompletes s hb hl, ?_⟩⟩
  · exact read_newEvents_of_closed h hl rfl rfl (Wire.read_transactionEvents _)
  · exact read_newEvents_of_closed h hl rfl rfl (Wire.read_transactionEvents _)
  · exact read_newEvents_of_closed h hl rfl rfl (Wire.read_storeEvents _ _)

end Sys2Proof.Machine

/-! PROOF. The micro-operations of the line driver (R110 to R115). -/

namespace Sys2Proof.Machine

/-- Settles O13, by micro-operation: the write of its register, then its one event put at the end of the trace. The sampled value
of READ_SDA is the one the environment gives next. -/
theorem microOperationsDoOneThing : Obligations.MicroOperationsDoOneThing := by
  intro s a
  refine ⟨?setScl, ?setSda, ?input, ?output, ?readSda, ?hold⟩
  case setScl => exact fun _ => rfl
  case setSda => exact fun _ => rfl
  case input => rfl
  case output => rfl
  case readSda => exact ⟨s.sampleAt 0, rfl, rfl⟩
  case hold => exact fun _ => rfl

end Sys2Proof.Machine

/-! PROOF. START, STOP and TXBYTE run whole, refused, and one micro-operation a step; the counts of their events; and the four-byte
write composed of them (R130 to R136, P3 of 95_test_vectors.md). -/

namespace Sys2Proof.Machine

/-! Refusals by link state (R134, log 5). -/

/-- Settles O18: each of the three is refused by the link state it does not execute in. -/
theorem wrongLinkStateOnlySetsErrSeq : Obligations.WrongLinkStateOnlySetsErrSeq := by
  intro s hb
  have hs := s.busy_eq_false.1 hb
  exact ⟨fun hl => exec_of_refused hs (decide_eq_true hl),
    fun hl => exec_of_refused hs (decide_eq_true hl),
    fun _ _ hl => exec_of_refused hs (decide_eq_true hl)⟩

/-- Settles O36: a frame begins with START, so an open transaction refuses it. -/
theorem framesRefusedWithTransactionOpen : Obligations.FramesRefusedWithTransactionOpen := by
  intro s a r h l hb hl
  have hs := s.busy_eq_false.1 hb
  have hr : decide (s.link = .started) = true := decide_eq_true hl
  exact ⟨exec_of_refused hs hr, exec_of_refused hs hr, exec_of_refused hs hr,
    exec_of_refused hs hr, exec_of_refused hs hr⟩

/-! START and STOP run whole (R131, R132). -/

/-- Settles O15: START's lines run whole. -/
theorem startCompletes : Obligations.StartCompletes := by
  intro s hb hl
  have hs := s.busy_eq_false.1 hb
  have hexec : exec .start s = .next ((runActs startActs none s).2.putSeq none) :=
    exec_of_accepted hs (decide_eq_false hl)
  rw [hexec, runActs_startActs, State.putSeq_none _ (by exact hs)]
  rfl

/-- Settles O16: STOP's lines run whole. -/
theorem stopCompletes : Obligations.StopCompletes := by
  intro s hb hl
  have hs := s.busy_eq_false.1 hb
  have hexec : exec .stop s = .next ((runActs stopActs none s).2.putSeq none) :=
    exec_of_accepted hs (decide_eq_false (not_not_intro hl))
  rw [hexec, runActs_stopActs, State.putSeq_none _ (by exact hs)]
  rfl

/-! `LINK` while an operation is in progress (R130). -/

/-- No micro-operation comes after a write of `LINK`: the lines are some that leave `LINK`, then register writes alone. -/
def LinkWrittenLast (acts : List Act) : Prop :=
  ∃ xs ys, acts = xs ++ ys ∧ (∀ l, .upd (.setLink l) ∉ xs) ∧ opCount ys = 0

theorem linkWrittenLast_startActs : LinkWrittenLast startActs :=
  ⟨startActs.dropLast, [.upd (.setLink .started)], rfl, by simp [startActs], rfl⟩

theorem linkWrittenLast_stopActs : LinkWrittenLast stopActs :=
  ⟨stopActs.dropLast, [.upd (.setLink .stopped)], rfl, by simp [stopActs], rfl⟩

theorem linkWrittenLast_txByteActs (b : Byte) (h : Bool) : LinkWrittenLast (txByteActs b h) := by
  refine ⟨txByteActs b h, [], (List.append_nil _).symm, fun l hl => ?_, rfl⟩
  cases upd_mem_txByteActs _ _ _ hl

/-- A further register write at the end, of whatever register, takes no micro-operation. -/
theorem LinkWrittenLast.append_upd {acts : List Act} (h : LinkWrittenLast acts) (u : Update) :
    LinkWrittenLast (acts ++ [.upd u]) := by
  obtain ⟨xs, ys, rfl, hxs, hys⟩ := h
  refine ⟨xs, ys ++ [.upd u], List.append_assoc .., hxs, ?_⟩
  rw [opCount, List.countP_append]
  exact hys

/-- Steps of the sequencer where no command is in progress leave none in progress. -/
theorem advance_iterate_of_idle {s : State} (hs : s.seq = none) (n : Nat) :
    State.advance^[n] s = s :=
  Function.iterate_fixed (State.advance_of_idle hs) n

/-- Register writes alone are settled at once: no command is in progress after them. -/
theorem settle_seq_of_opCount_zero (cmd : Instr) (k : Nat) {acts : List Act}
    (h : opCount acts = 0) (a : Option Bool) (s : State) : (settle cmd k acts a s).seq = none := by
  have hend := advance_iterate_settle cmd k acts a s
  rw [h, Function.iterate_zero_apply] at hend
  rw [hend, State.putSeq_seq]

/-- While a command whose lines write `LINK` last is in progress, `LINK` is what it was. -/
theorem link_of_advance_iterate_settle (cmd : Instr) {acts : List Act} (h : LinkWrittenLast acts)
    (k n : Nat) (a : Option Bool) (s : State)
    (hbusy : (State.advance^[n] (settle cmd k acts a s)).busy = true) :
    (State.advance^[n] (settle cmd k acts a s)).link = s.link := by
  obtain ⟨xs, ys, rfl, hxs, hys⟩ := h
  induction xs generalizing k n a s with
  | nil =>
    have hidle := settle_seq_of_opCount_zero cmd k hys a s
    rw [List.nil_append, advance_iterate_of_idle hidle, State.busy, hidle] at hbusy
    contradiction
  | cons x xs ih =>
    have hrest : ∀ l, .upd (.setLink l) ∉ xs := fun l hl => hxs l (List.mem_cons_of_mem _ hl)
    cases x with
    | op m =>
      cases n with
      | zero => rfl
      | succ n =>
        rw [List.cons_append, Function.iterate_succ_apply, advance_settle_op] at hbusy ⊢
        rw [ih _ _ _ _ hbusy hrest, m.run_frame]
    | upd u =>
      have hu : ∀ l, u ≠ .setLink l := fun l hl => hxs l (hl ▸ List.mem_cons_self)
      obtain ⟨-, -, hlink⟩ := u.run_lines hu a s
      exact (ih k n a (u.run a s) hbusy hrest).trans hlink

/-- While an instruction whose lines write `LINK` last is in progress, `LINK` is what it was when it was accepted. -/
theorem link_of_advance_iterate_accept {i : Instr} {s : State} (hs : s.seq = none)
    (h : LinkWrittenLast (actsOf i s)) (n : Nat)
    (hbusy : (State.advance^[n] (accept i s)).busy = true) :
    (State.advance^[n] (accept i s)).link = s.link := by
  obtain ha | ha := accept_cases i s <;> rw [ha] at hbusy ⊢
  · exact link_of_advance_iterate_settle i h 0 n none s hbusy
  · rw [advance_iterate_of_idle (s := s.refuseSeq) hs]
    rfl

/-- Settles O19: the closed form of each executing cell and the refusal of the others; the three operations write `LINK` last. -/
theorem linkTransitionTable : Obligations.LinkTransitionTable := by
  intro s b nh hb
  obtain ⟨hstart, hstop, htx⟩ := wrongLinkStateOnlySetsErrSeq s hb
  have hheld : ∀ (i : Instr) (n : Nat) (x : State), i = .start ∨ i = .stop ∨ i = .txByte b nh →
      x = State.advance^[n] (accept i s) → x.busy = true → x.link = s.link := by
    rintro i n x hi rfl hbusy
    refine link_of_advance_iterate_accept (s.busy_eq_false.1 hb) ?_ n hbusy
    obtain rfl | rfl | rfl := hi
    · exact linkWrittenLast_startActs
    · exact linkWrittenLast_stopActs
    · exact (linkWrittenLast_txByteActs b (!nh)).append_upd .resultFromAck
  by_cases hl : s.link = .started
  · exact ⟨_, _, _, hstart hl, stopCompletes s hb hl, txByteCompletes s b nh hb hl,
      by simp [hl], fun _ => ⟨⟨hl, rfl⟩, ⟨rfl, rfl⟩, ⟨hl, rfl⟩⟩, by simp [hl], hheld⟩
  · exact ⟨_, _, _, startCompletes s hb hl, hstop hl, htx b nh hl,
      fun h => ⟨⟨rfl, rfl⟩, ⟨h, rfl⟩, ⟨h, rfl⟩⟩, fun h => absurd h hl,
      fun h => ⟨⟨rfl, rfl⟩, ⟨h, rfl⟩, ⟨h, rfl⟩⟩, hheld⟩

/-! The counts of each operation's events (R136). -/

theorem sdaCount_append (es fs : List Event) : sdaCount (es ++ fs) = sdaCount es + sdaCount fs := by
  simp only [sdaCount, List.count_append]
  omega

theorem dirCount_append (es fs : List Event) : dirCount (es ++ fs) = dirCount es + dirCount fs := by
  simp only [dirCount, List.count_append]
  omega

theorem holdCount_append (d : Nat) (es fs : List Event) :
    holdCount d (es ++ fs) = holdCount d es + holdCount d fs :=
  List.count_append

/-- A count that adds up over lists and is the same for every data bit: eight times it for a byte, and that of the acknowledgment
slot. -/
theorem count_byteEvents {count : List Event → Nat}
    (happend : ∀ es fs, count (es ++ fs) = count es + count fs) {hold : Bool} {k : Nat}
    (hbit : ∀ v, count (bitEvents hold v) = k) (b : Byte) (a : Bool) :
    count (byteEvents b hold a) =
      8 * k + count [.dir .input, .scl true, .sample a, .scl false, .dir .output] := by
  simp only [byteEvents, happend, hbit]
  omega

theorem sdaCount_byteEvents (b : Byte) (hold a : Bool) : sdaCount (byteEvents b hold a) = 8 := by
  have hbit : ∀ v, sdaCount (bitEvents hold v) = 1 := by revert hold; decide
  rw [count_byteEvents sdaCount_append hbit]
  cases a <;> rfl

theorem sampleCount_byteEvents (b : Byte) (hold a : Bool) :
    sampleCount (byteEvents b hold a) = 1 := by
  have hbit : ∀ v, sampleCount (bitEvents hold v) = 0 := by revert hold; decide
  rw [count_byteEvents sampleCount_append hbit]
  cases a <;> rfl

theorem dirCount_byteEvents (b : Byte) (hold a : Bool) : dirCount (byteEvents b hold a) = 2 := by
  have hbit : ∀ v, dirCount (bitEvents hold v) = 0 := by revert hold; decide
  rw [count_byteEvents dirCount_append hbit]
  cases a <;> rfl

/-- The per-bit holds of a byte. -/
theorem holdCount_byteEvents (b : Byte) (hold a : Bool) :
    holdCount 5000 (byteEvents b hold a) = if hold then 8 else 0 := by
  have hbit : ∀ v, holdCount 5000 (bitEvents hold v) = if hold then 1 else 0 := by
    revert hold; decide
  rw [count_byteEvents (holdCount_append 5000) hbit]
  cases hold <;> cases a <;> rfl

/-- The clock falls once at the end of each data bit and once at the end of the acknowledgment slot. -/
theorem clockFalls_byteEvents (b : Byte) (hold a : Bool) :
    clockFalls false (byteEvents b hold a) = 9 := by
  have hbit : ∀ v es, clockFalls false (bitEvents hold v ++ es) = 1 + clockFalls false es := by
    intro v es
    cases hold <;> simp [bitEvents, clockFalls]
  simp only [byteEvents, List.append_assoc, hbit]
  rfl

/-- Settles O43: each operation's closed form names its events, and the clock is low where a transaction is open. -/
theorem traceCheckerCounts : Obligations.TraceCheckerCounts := by
  intro s hb h
  refine ⟨fun hl => ⟨_, startCompletes s hb hl, ?_⟩, fun hl => ⟨_, stopCompletes s hb hl, ?_⟩,
    fun b nh hl => ⟨_, txByteCompletes s b nh hb hl, ?_⟩⟩
  · rw [State.newEvents_eq s _ startEvents rfl, s.wire_closed h hl, Wire.read_startEvents]
    rfl
  · have hscl := ((State.linesOk_of_started hl).1 h).2
    rw [State.newEvents_eq s _ stopEvents rfl, s.wire_open h hl, Wire.read_stopEvents, hscl]
    exact ⟨rfl, rfl, rfl⟩
  · have hscl := ((State.linesOk_of_started hl).1 h).2
    rw [State.newEvents_eq s _ (byteEvents b (!nh) (s.sampleAt 0)) rfl, s.wire_open h hl,
      Wire.read_byteEvents, pulseCount_cellMarks, sdaCount_byteEvents, sampleCount_byteEvents,
      dirCount_byteEvents, holdCount_byteEvents, hscl, clockFalls_byteEvents]
    exact ⟨rfl, rfl, rfl, rfl, by cases nh <;> rfl, rfl⟩

/-! The four-byte write composed of link commands (P3 of 95_test_vectors.md). -/

/-- What START and `n` TXBYTE commands leave: a transaction open, bit 0 of the last byte on the data latch, and `RESULT` as the last of
them wrote it. -/
def State.openRun (s : State) (n : Nat) (es : List Event) (bit0 : Bool) (result : Word32) : State :=
  { s.busRun n es with
    sclO := false, sdaO := bit0, sdaOe := if n = 0 then s.sdaOe else true
    link := .started, result := result }

theorem exec_start_openRun {s : State} (hb : s.busy = false) (hl : s.link ≠ .started) :
    exec .start s = .next (s.openRun 0 startEvents false s.result) :=
  startCompletes s hb hl

/-- One more TXBYTE: its acknowledgment is the sample past those of the bytes before it. -/
theorem exec_txByte_openRun {s : State} (hb : s.busy = false) (n : Nat) (es : List Event)
    (bit0 : Bool) (result : Word32) (b : Byte) (nh : Bool) :
    exec (.txByte b nh) (s.openRun n es bit0 result) =
      .next (s.openRun (n + 1) (es ++ byteEvents b (!nh) (s.sampleAt n)) (b.getLsbD 0)
        (if s.sampleAt n then 1 else 0)) := by
  have hsample : (s.openRun n es bit0 result).sampleAt 0 = s.sampleAt n :=
    State.sampleAt_add s _ n 0 rfl rfl
  rw [txByteCompletes (s.openRun n es bit0 result) b nh hb rfl, hsample]
  simp [State.openRun, State.busRun, Nat.add_assoc]

/-- STOP after at least one byte: the closed run of the bytes, but for `RESULT`. -/
theorem exec_stop_openRun {s : State} (hb : s.busy = false) (n : Nat) (es : List Event)
    (bit0 : Bool) (result : Word32) :
    exec .stop (s.openRun (n + 1) es bit0 result) =
      .next { s.closedRun (n + 1) (es ++ stopEvents) with result := result } := by
  rw [stopCompletes (s.openRun (n + 1) es bit0 result) hb rfl]
  simp [State.openRun, State.closedRun, State.busRun, stopEvents, Config.tBefore, Config.tAfter]

/-- Settles O38: the open run grown command by command, closed by STOP, beside WRITE_CODE's closed form. -/
theorem writeCodeIsItsLinkCommands : Obligations.WriteCodeIsItsLinkCommands := by
  intro s code hb hl
  refine ⟨_, _, _, _, _, _, exec_start_openRun hb hl, exec_txByte_openRun hb ..,
    exec_txByte_openRun hb .., exec_txByte_openRun hb .., exec_txByte_openRun hb ..,
    exec_stop_openRun hb .., ?_⟩
  rw [writeCodeCompletes s code hb hl]
  simp [writeEvents, transactionEvents]

end Sys2Proof.Machine

/-! PROOF. The device register commands refused with a transaction open, WRITE_CODE's result as a number, WRITE_CURRENT run whole; that every
instruction answers a next state, and how many events it emits at most (R152, R153, R157, R158, R173, R175). -/

namespace Sys2Proof.Machine

/-! How many micro-operations the lines of an instruction hold (R153, R158). -/

@[simp] theorem opCount_append (xs ys : List Act) :
    opCount (xs ++ ys) = opCount xs + opCount ys :=
  List.countP_append

@[simp] theorem opCount_startActs : opCount startActs = 6 := rfl

@[simp] theorem opCount_stopActs : opCount stopActs = 5 := rfl

theorem opCount_bitActs (v h : Bool) : opCount (bitActs v h) = if h then 4 else 3 := by
  cases h <;> rfl

/-- Eight data bits and the acknowledgment slot: 37 micro-operations with the per-bit hold, 29 without (R133). -/
@[simp] theorem opCount_txByteActs (b : Byte) (h : Bool) :
    opCount (txByteActs b h) = if h then 37 else 29 := by
  have hack : opCount ackActs = 5 := rfl
  simp only [txByteActs, bitsOf, List.map_cons, List.map_nil, List.flatMap_cons, List.flatMap_nil,
    List.append_nil, opCount_append, opCount_bitActs, hack]
  cases h <;> rfl

/-- START, the bytes one after the other, STOP (R67). -/
@[simp] theorem opCount_transactionActs (bytes : List (Byte × Bool)) :
    opCount (transactionActs bytes) = 11 + (bytes.map fun x => if x.2 then 37 else 29).sum := by
  have hbytes : opCount (bytes.flatMap fun x => txByteActs x.1 x.2) =
      (bytes.map fun x => if x.2 then 37 else 29).sum := by
    induction bytes with
    | nil => rfl
    | cons x xs ih =>
      rw [List.flatMap_cons, opCount_append, opCount_txByteActs, ih, List.map_cons, List.sum_cons]
  rw [transactionActs, opCount_append, opCount_append, opCount_startActs,
    opCount_stopActs, hbytes]
  omega

/-- The write of four bytes, for every code (R152). -/
theorem opCount_writeCodeActs (s : State) (c : Code) : opCount (writeCodeActs s c) = 159 := by
  simp [writeCodeActs, writeBytes]

/-- STORE: 48, 85 and 280 micro-operations in its transactions, and the settle delay (R153). -/
theorem opCount_storeActs (s : State) : opCount (storeActs s) = 414 := by
  simp [storeActs, storeBytes1, storeBytes2, storeBytes3, Config.storeCmd2Count]

/-- No instruction has more micro-operations than STORE. -/
theorem opCount_actsOf_le (i : Instr) (s : State) : opCount (actsOf i s) ≤ 414 := by
  cases i with
  | probe => simp [actsOf, probeActs, probeBytes]
  | setCal lo hi => cases h : calValid lo hi <;> simp [actsOf, h]
  | writeCode c => simp [actsOf, opCount_writeCodeActs]
  | writeCurrent x => simp [actsOf, opCount_writeCodeActs]
  | store => exact (opCount_storeActs s).le
  | start => simp [actsOf]
  | stop => simp [actsOf]
  | txByte b nh => cases nh <;> simp [actsOf]
  | addrByte a => simp [actsOf]
  | probeFrame a => simp [actsOf, probeBytes]
  | writeCodeFrame a r l h => simp [actsOf, writeBytes]
  | storeFrame1 => simp [actsOf, storeBytes1]
  | storeFrame2 => simp [actsOf, storeBytes2]
  | storeFrame3 a => simp [actsOf, storeBytes3, Config.storeCmd2Count]

/-- Settles O11: a held off or refused instruction emits nothing, an accepted one an event for each micro-operation of its lines. -/
theorem commandsAreBounded : Obligations.CommandsAreBounded := by
  intro i s t h
  obtain ⟨-, rfl⟩ | ⟨-, -, rfl⟩ | ⟨-, -, rfl⟩ := exec_inversion h
  · exact ⟨le_rfl, Nat.le_add_right ..⟩
  · exact ⟨le_rfl, Nat.le_add_right ..⟩
  · rw [State.putSeq_trace, runActs_trace_length]
    exact ⟨Nat.le_add_right .., Nat.add_le_add_left (opCount_actsOf_le i s) _⟩

/-- Settles O10: held off while `BUSY = 1`; otherwise the meaning runs to its end, where no command is in progress. -/
theorem everyInstructionTerminates : Obligations.EveryInstructionTerminates := by
  intro i s
  cases hb : s.busy
  · exact ⟨_, exec_eq_accept_finish i s (s.busy_eq_false.1 hb),
      (State.busy_eq_false _).2 (State.finish_seq _)⟩
  · exact ⟨s, exec_of_busy i s hb, hb⟩

/-! The device commands (R152, R157, R173, R175). -/

/-- Settles O23: each of the four is refused by the open transaction. -/
theorem deviceCommandRefusedWithTransactionOpen :
    Obligations.DeviceCommandRefusedWithTransactionOpen := by
  intro s hb hl
  have hs := s.busy_eq_false.1 hb
  have hr : decide (s.link = .started) = true := decide_eq_true hl
  exact ⟨exec_of_refused hs hr, fun _ => exec_of_refused hs hr, fun _ => exec_of_refused hs hr,
    exec_of_refused hs hr⟩

/-- The numerator `25 × c` is at most 102375, so the 32 bits of `RESULT` hold it. -/
theorem toCurrent_toNat (c : Code) : (toCurrent c).toNat = 25 * c.toNat := by
  have := c.toNat_lt
  rw [toCurrent, BitVec.toNat_ofNat, Config.iMax, Nat.mod_eq_of_lt (by omega)]

/-- Settles O25: WRITE_CODE's closed form, its `RESULT` being the current of the code it leaves in `OUT_CODE`. -/
theorem writeCodeReturnsTheCurrent : Obligations.WriteCodeReturnsTheCurrent := by
  intro s code hb hl
  refine ⟨_, writeCodeCompletes s code hb hl, ?_⟩
  have hcode : (code.extractLsb' 0 12).toNat = code.toNat % 4096 := by
    rw [← codeField_eq, codeField_toNat]
  have hresult : (BitVec.ofNat 32 (25 * (code.toNat % 4096))).toNat =
      25 * (code.extractLsb' 0 12).toNat := by
    rw [← hcode]
    exact toCurrent_toNat _
  refine ⟨hresult, hcode, hresult.trans_le ?_⟩
  omega

/-- Settles O33: WRITE_CODE's lines on the converted code, then `RESULT` takes the code. -/
theorem writeCurrentCompletes : Obligations.WriteCurrentCompletes := by
  rintro s iIn c hb hl rfl
  have hs := s.busy_eq_false.1 hb
  obtain ⟨a', hrun⟩ := runActs_writeCodeActs s (s.toCode iIn) none s
  have hexec : exec (.writeCurrent iIn) s = .next ((runActs (writeCodeActs s (s.toCode iIn) ++
      [.upd (.setResult ((s.toCode iIn).setWidth 32))]) none s).2.putSeq none) :=
    exec_of_accepted hs (decide_eq_false hl)
  rw [hexec, runActs_append, hrun, lowByte_eq, highByte_eq, State.putSeq_none _ (by exact hs)]
  rfl

end Sys2Proof.Machine

/-! PROOF. The conversion layer: the clamped operand, the code on each of the two branches and its range, the exact rational formula
beside the integer one, and SET_CAL run whole (R171, R172, R174, R176, R177). -/

namespace Sys2Proof.Machine

/-! The clamped operand (R171). -/

theorem clampedIn_eq_ite (x : Word32) :
    clampedIn x = if x.toInt < 0 then 0 else if 1638400 < x.toInt then 1638400 else x.toInt :=
  rfl

theorem clampedIn_eq (x : Word32) : clampedIn x = max 0 (min x.toInt 1638400) := by
  rw [clampedIn_eq_ite]
  omega

theorem clampedIn_nonneg (x : Word32) : 0 ≤ clampedIn x := by
  rw [clampedIn_eq]
  omega

theorem clampedIn_le (x : Word32) : clampedIn x ≤ 1638400 := by
  rw [clampedIn_eq]
  omega

theorem clampedIn_mono {x y : Word32} (h : x.toInt ≤ y.toInt) : clampedIn x ≤ clampedIn y := by
  rw [clampedIn_eq, clampedIn_eq]
  omega

/-- The code depends on the operand through its clamped value alone. -/
theorem State.toCode_congr (s : State) {x y : Word32} (h : clampedIn x = clampedIn y) :
    s.toCode x = s.toCode y := by
  rw [State.toCode, State.toCodeInt, h]
  rfl

/-- Settles O26: operands cut to one value share a code. -/
theorem clampedCurrentsShareTheirCode : Obligations.ClampedCurrentsShareTheirCode := by
  intro s x
  refine ⟨clampedIn_eq x, fun h => s.toCode_congr ?_, fun h => s.toCode_congr ?_,
    s.toCode_congr rfl, s.toCode_congr rfl⟩
  · have hzero : clampedIn 0 = 0 := rfl
    rw [clampedIn_eq, hzero]
    omega
  · have hmax : clampedIn 0x00190000 = 1638400 := rfl
    rw [clampedIn_eq, hmax]
    omega

/-! The two branches of the integer form, and the range of the code (R172 corner (a), R177). -/

/-- The product of the calibrated branch, `t` steps above 4 mA with a pair `d` codes apart. -/
theorem spanProduct_bounds {t d : Int} (h0 : 0 ≤ t) (h1 : t ≤ 1048576) (hd : 0 ≤ d) :
    0 ≤ t * d ∧ t * d ≤ 1048576 * d :=
  ⟨mul_nonneg h0 hd, mul_le_mul_of_nonneg_right h1 hd⟩

/-- The integer form with the constants of R8 written out as numbers. -/
theorem codeOf_eq (en : Bool) (lo hi : Code) (x : Int) :
    codeOf en lo hi x =
      if en = true ∧ 262144 ≤ x ∧ x ≤ 1310720
        then (lo.toNat : Int) + (x - 262144) * ((hi.toNat : Int) - lo.toNat) / 1048576
        else x * 4095 / 1638400 :=
  rfl

/-- Whatever the pair, the code of a clamped operand fits 12 bits: the calibrated branch lies between `lo` and `hi`, in either order. -/
theorem codeOf_range (en : Bool) (lo hi : Code) {x : Int} (h0 : 0 ≤ x) (h25 : x ≤ 1638400) :
    0 ≤ codeOf en lo hi x ∧ codeOf en lo hi x ≤ 4095 := by
  have hlo := lo.toNat_lt
  have hhi := hi.toNat_lt
  rw [codeOf_eq]
  split
  next hband =>
    obtain ⟨-, h4, h20⟩ := hband
    have ht0 : 0 ≤ x - 262144 := by omega
    have ht1 : x - 262144 ≤ 1048576 := by omega
    obtain hle | hle := le_total lo.toNat hi.toNat
    · obtain ⟨hp0, hp1⟩ := spanProduct_bounds (d := (hi.toNat : Int) - lo.toNat) ht0 ht1 (by omega)
      omega
    · obtain ⟨hp0, hp1⟩ := spanProduct_bounds (d := (lo.toNat : Int) - hi.toNat) ht0 ht1 (by omega)
      have hneg : (x - 262144) * ((hi.toNat : Int) - lo.toNat) =
          -((x - 262144) * ((lo.toNat : Int) - hi.toNat)) := by ring
      omega
  next => omega

/-- The narrowing to 12 bits loses nothing. -/
theorem State.toCode_toNat (s : State) (x : Word32) :
    ((s.toCode x).toNat : Int) = codeOf s.calEn s.calLo s.calHi (clampedIn x) := by
  obtain ⟨h0, h4095⟩ :=
    codeOf_range s.calEn s.calLo s.calHi (clampedIn_nonneg x) (clampedIn_le x)
  have hwidth : 2 ^ Config.codeBits = 4096 := rfl
  rw [State.toCode, State.toCodeInt, BitVec.toNat_ofInt, hwidth]
  omega

/-- The calibrated branch, in the band of [4, 20] mA, where the clamp does nothing. -/
theorem State.toCode_toNat_of_band {s : State} {x : Word32} (hen : s.calEn = true)
    (h4 : 262144 ≤ x.toInt) (h20 : x.toInt ≤ 1310720) :
    ((s.toCode x).toNat : Int) = s.calLo.toNat +
      (x.toInt - 262144) * ((s.calHi.toNat : Int) - s.calLo.toNat) / 1048576 := by
  have hx : clampedIn x = x.toInt := by
    rw [clampedIn_eq]
    omega
  rw [s.toCode_toNat, hx, codeOf_eq, if_pos ⟨hen, h4, h20⟩]

/-- The linear branch, without calibration or off the band. -/
theorem State.toCode_toNat_of_linear {s : State} {x : Word32}
    (h : s.calEn = true → x.toInt < 262144 ∨ 1310720 < x.toInt) :
    ((s.toCode x).toNat : Int) = clampedIn x * 4095 / 1638400 := by
  have hnot : ¬(s.calEn = true ∧ 262144 ≤ clampedIn x ∧ clampedIn x ≤ 1310720) := by
    rintro ⟨hen, h4, h20⟩
    have hoff := h hen
    rw [clampedIn_eq] at h4 h20
    omega
  rw [s.toCode_toNat, codeOf_eq, if_neg hnot]

theorem State.toCode_eq_of_linear {s : State} {x : Word32} {c : Code}
    (h : s.calEn = true → x.toInt < 262144 ∨ 1310720 < x.toInt)
    (hc : clampedIn x * 4095 / 1638400 = c.toNat) : s.toCode x = c :=
  BitVec.eq_of_toNat_eq (Int.natCast_inj.1 ((State.toCode_toNat_of_linear h).trans hc))

/-- Settles O28: the integer form as a number, and the bounds of both products. -/
theorem integerFormAndItsWidths : Obligations.IntegerFormAndItsWidths := by
  rintro s w x lo hi hx rfl rfl
  have hhi := s.calHi.toNat_lt
  refine ⟨?_, by omega, by omega, fun hlt h4 h20 => ?_⟩
  · rw [s.toCode_toNat, codeOf_eq, clampedIn_eq, ← hx]
  · obtain ⟨hp0, hp1⟩ := spanProduct_bounds (t := x - 262144)
      (d := (s.calHi.toNat : Int) - s.calLo.toNat) (by omega) (by omega) (by omega)
    omega

theorem State.calOk_iff (s : State) : s.calOk = true ↔ s.calLo.toNat < s.calHi.toNat :=
  decide_eq_true_iff

/-- Settles O29: each end by its branch. -/
theorem conversionEndpoints : Obligations.ConversionEndpoints := by
  intro s
  refine ⟨fun hen => ⟨?_, ?_⟩, fun x hen hok h4 h20 => ?_,
    State.toCode_eq_of_linear (fun _ => .inl (by decide)) rfl,
    State.toCode_eq_of_linear (fun _ => .inr (by decide)) rfl⟩
  · have hcode : ((s.toCode 0x00040000).toNat : Int) = s.calLo.toNat +
        (262144 - 262144) * ((s.calHi.toNat : Int) - s.calLo.toNat) / 1048576 :=
      State.toCode_toNat_of_band hen (by decide) (by decide)
    exact BitVec.eq_of_toNat_eq (by omega)
  · have hcode : ((s.toCode 0x00140000).toNat : Int) = s.calLo.toNat +
        (1310720 - 262144) * ((s.calHi.toNat : Int) - s.calLo.toNat) / 1048576 :=
      State.toCode_toNat_of_band hen (by decide) (by decide)
    exact BitVec.eq_of_toNat_eq (by omega)
  · have hcode := State.toCode_toNat_of_band hen h4 h20
    rw [State.calOk_iff] at hok
    obtain ⟨hp0, hp1⟩ := spanProduct_bounds (t := x.toInt - 262144)
      (d := (s.calHi.toNat : Int) - s.calLo.toNat) (by omega) (by omega) (by omega)
    omega

theorem State.toCode_mono_of_linear {s : State} {x y : Word32} (hle : x.toInt ≤ y.toInt)
    (hx : s.calEn = true → x.toInt < 262144 ∨ 1310720 < x.toInt)
    (hy : s.calEn = true → y.toInt < 262144 ∨ 1310720 < y.toInt) :
    (s.toCode x).toNat ≤ (s.toCode y).toNat := by
  have hxy := clampedIn_mono hle
  have hcx := State.toCode_toNat_of_linear hx
  have hcy := State.toCode_toNat_of_linear hy
  omega

/-- The product of the calibrated branch rises with the current where the pair is valid. -/
theorem State.toCode_mono_of_band {s : State} {x y : Word32} (hle : x.toInt ≤ y.toInt)
    (hen : s.calEn = true) (hok : s.calOk = true) (h4 : 262144 ≤ x.toInt)
    (h20 : y.toInt ≤ 1310720) : (s.toCode x).toNat ≤ (s.toCode y).toNat := by
  have hcx := State.toCode_toNat_of_band hen h4 (hle.trans h20)
  have hcy := State.toCode_toNat_of_band hen (h4.trans hle) h20
  rw [State.calOk_iff] at hok
  have hprod : (x.toInt - 262144) * ((s.calHi.toNat : Int) - s.calLo.toNat) ≤
      (y.toInt - 262144) * ((s.calHi.toNat : Int) - s.calLo.toNat) :=
    mul_le_mul_of_nonneg_right (by omega) (by omega)
  omega

/-- Settles O30: each branch by itself. -/
theorem conversionMonotoneOnEachBranch : Obligations.ConversionMonotoneOnEachBranch := by
  intro s x y hle
  refine ⟨fun hen => ?_, fun _ hx hy => ?_, fun hen hok h4 h20 => ?_⟩
  · have hlinear : ∀ z : Word32, s.calEn = true → z.toInt < 262144 ∨ 1310720 < z.toInt :=
      fun _ h => absurd h (by simp [hen])
    exact State.toCode_mono_of_linear hle (hlinear x) (hlinear y)
  · exact State.toCode_mono_of_linear hle (fun _ => hx) (fun _ => hy)
  · exact State.toCode_mono_of_band hle hen hok h4 h20

/-- Settles O31: 20 mA has `CAL_HI`, the next operand the linear branch's code. -/
theorem calibratedCodeFallsPastTwenty : Obligations.CalibratedCodeFallsPastTwenty := by
  intro s hen _ hhi
  obtain ⟨hends, -⟩ := conversionEndpoints s
  obtain ⟨-, htwenty⟩ := hends hen
  exact ⟨htwenty.trans hhi, State.toCode_eq_of_linear (fun _ => .inr (by decide)) rfl⟩

/-! The exact rational formula (R172). -/

/-- The current cut to [0, 25] mA, as `toCodeExact` cuts it (R171). -/
def clampedCurrent (i : ℚ) : ℚ :=
  if i < 0 then 0 else if (Config.iMax : ℚ) < i then Config.iMax else i

/-- R172 with the constants of R8 written out as numbers. -/
theorem State.toCodeExact_eq (s : State) (i : ℚ) :
    s.toCodeExact i =
      if s.calEn = true ∧ 4 ≤ clampedCurrent i ∧ clampedCurrent i ≤ 20
        then (s.calLo.toNat : Int) +
          ⌊(clampedCurrent i - 4) * ((s.calHi.toNat : ℚ) - s.calLo.toNat) / 16⌋
        else ⌊clampedCurrent i * 4095 / 25⌋ :=
  rfl

/-- A whole number of milliamperes beside a current, by their operands. -/
theorem intCast_le_current_iff (m x : Int) : (m : ℚ) ≤ (x : ℚ) / 65536 ↔ m * 65536 ≤ x := by
  rw [le_div_iff₀ (by norm_num)]
  exact_mod_cast Iff.rfl

theorem current_le_intCast_iff (m x : Int) : (x : ℚ) / 65536 ≤ m ↔ x ≤ m * 65536 := by
  rw [div_le_iff₀ (by norm_num)]
  exact_mod_cast Iff.rfl

theorem floor_eq_ediv {q : ℚ} {n : Int} {d : Nat} (h : q = n / d) : ⌊q⌋ = n / (d : Int) :=
  h ▸ Rat.floor_intCast_div_natCast n d

/-- The clamp on currents is the clamp on operands, 65536 operands to the milliampere. -/
theorem clampedCurrent_currentOf (x : Word32) :
    clampedCurrent (currentOf x) = (clampedIn x : ℚ) / 65536 := by
  have hneg : (x.toInt : ℚ) / 65536 < 0 ↔ x.toInt < 0 := by
    simpa using (intCast_le_current_iff 0 x.toInt).not
  have hover : 25 < (x.toInt : ℚ) / 65536 ↔ 1638400 < x.toInt := by
    simpa using (current_le_intCast_iff 25 x.toInt).not
  have hcut : clampedCurrent (currentOf x) = if (x.toInt : ℚ) / 65536 < 0 then 0
      else if 25 < (x.toInt : ℚ) / 65536 then 25 else (x.toInt : ℚ) / 65536 := rfl
  simp only [hcut, clampedIn_eq_ite, hneg, hover]
  split
  · simp
  · split <;> norm_num

/-- Settles O27: the two tests cut at the same operands, and each floor is that of a quotient of integers. -/
theorem toCodeIsTheExactFormula : Obligations.ToCodeIsTheExactFormula := by
  intro s x
  have h4 : (4 : ℚ) ≤ (clampedIn x : ℚ) / 65536 ↔ 262144 ≤ clampedIn x :=
    intCast_le_current_iff 4 _
  have h20 : (clampedIn x : ℚ) / 65536 ≤ 20 ↔ clampedIn x ≤ 1310720 :=
    current_le_intCast_iff 20 _
  have hcal : ⌊((clampedIn x : ℚ) / 65536 - 4) * ((s.calHi.toNat : ℚ) - s.calLo.toNat) / 16⌋ =
      (clampedIn x - 262144) * ((s.calHi.toNat : Int) - s.calLo.toNat) / 1048576 :=
    floor_eq_ediv (d := 1048576) (by push_cast; ring)
  have hlin : ⌊(clampedIn x : ℚ) / 65536 * 4095 / 25⌋ = clampedIn x * 4095 / 1638400 :=
    floor_eq_ediv (d := 1638400) (by push_cast; ring)
  rw [s.toCode_toNat, codeOf_eq, s.toCodeExact_eq, clampedCurrent_currentOf, hcal, hlin]
  simp only [h4, h20]

/-! SET_CAL (R174). -/

theorem calValid_iff (lo hi : BitVec 16) :
    calValid lo hi = true ↔ lo.toNat < hi.toNat ∧ hi.toNat ≤ 4095 := by
  rw [calValid, Bool.and_eq_true, decide_eq_true_iff, decide_eq_true_iff]
  rfl

/-- Settles O32: SET_CAL has no refusal, and its lines are the one write of a valid pair or none. -/
theorem setCalCompletes : Obligations.SetCalCompletes := by
  intro s lo hi hb
  have hs := s.busy_eq_false.1 hb
  have hexec : exec (.setCal lo hi) s =
      .next ((runActs (actsOf (.setCal lo hi) s) none s).2.putSeq none) :=
    exec_of_accepted hs rfl
  rw [hexec]
  split
  next hvalid =>
    rw [actsOf, if_pos ((calValid_iff lo hi).2 hvalid), codeField_eq, codeField_eq]
    exact congrArg Host.Outcome.next (State.putSeq_none _ hs)
  next hvalid =>
    rw [actsOf, if_neg fun h => hvalid ((calValid_iff lo hi).1 h)]
    exact congrArg Host.Outcome.next (State.putSeq_none s hs)

end Sys2Proof.Machine

/-! PROOF. The idle step (R206). -/

namespace Sys2Proof.Machine

/-- Settles O12: with no act of the host the step is the sequencer's, which has no command to go on with. -/
theorem idleStepChangesNothing : Obligations.IdleStepChangesNothing := by
  intro s hb hh
  rw [step_of_host_nil hh, State.advance_of_idle (s.busy_eq_false.1 hb)]

end Sys2Proof.Machine

/-! PROOF. A read of a status word that does not exist (R229, log 12), and the events, clock pulses and holds of each operation (R219,
R228). -/

namespace Sys2Proof.Machine

/-! A status word that does not exist (R229). -/

theorem State.statusRead_of_missing (s : State) {n : Nat} (hn : 5 ≤ n) : s.statusRead n = none := by
  obtain ⟨k, rfl⟩ := Nat.exists_eq_add_of_le' hn
  rfl

/-- Settles O45: the status port has no word of that number, which the step answers with the fault. -/
theorem readOfMissingWordStops : Obligations.ReadOfMissingWordStops := by
  intro s n rest hh hn
  have hnone := (s.putHost rest).statusRead_of_missing hn
  simp only [step, State.fetch, hh, takeRead, hnone]

/-! The length, the pulses and the holds of a transaction, and of each command's events (R228). -/

theorem length_cellEvents (cs : List Cell) :
    (cs.flatMap fun c => byteEvents c.byte c.hold c.ack).length =
      (cs.map fun c => if c.hold then 37 else 29).sum := by
  simp only [List.length_flatMap, length_byteEvents]

theorem holdSum_cellEvents (cs : List Cell) :
    holdSum (cs.flatMap fun c => byteEvents c.byte c.hold c.ack) =
      (cs.map fun c => if c.hold then 40000 else 0).sum := by
  induction cs with
  | nil => rfl
  | cons c cs ih =>
    rw [List.flatMap_cons, holdSum_append, holdSum_byteEvents, ih, List.map_cons, List.sum_cons]

/-- Six events of START, five of STOP, and the bytes between them. -/
theorem length_transactionEvents (cs : List Cell) :
    (transactionEvents cs).length = 11 + (cs.map fun c => if c.hold then 37 else 29).sum := by
  have hstart : startEvents.length = 6 := rfl
  have hstop : stopEvents.length = 5 := rfl
  rw [transactionEvents, List.length_append, List.length_append, length_cellEvents, hstart, hstop]
  omega

/-- 5 µs of START, 5 µs of STOP, and the bytes between them. -/
theorem holdSum_transactionEvents (cs : List Cell) :
    holdSum (transactionEvents cs) =
      10000 + (cs.map fun c => if c.hold then 40000 else 0).sum := by
  have hstart : holdSum startEvents = 5000 := rfl
  have hstop : holdSum stopEvents = 5000 := rfl
  rw [transactionEvents, holdSum_append, holdSum_append, holdSum_cellEvents, hstart, hstop]
  omega

/-- Nine pulses a byte; the start and stop conditions are none. -/
theorem pulseCount_frameMarks (cells : List (Byte × Bool)) :
    pulseCount (frameMarks cells) = 9 * cells.length := by
  have hcells : pulseCount (cells.flatMap fun c => cellMarks c.1 c.2) = 9 * cells.length := by
    induction cells with
    | nil => rfl
    | cons c cs ih =>
      rw [List.flatMap_cons, pulseCount_append, pulseCount_cellMarks, ih, List.length_cons]
      omega
  have hstart : pulseCount [.start] = 0 := rfl
  have hstop : pulseCount [.stop] = 0 := rfl
  rw [frameMarks, pulseCount_append, pulseCount_append, hcells, hstart, hstop]
  omega

theorem length_probeEvents (a : Byte) (ack : Nat → Bool) : (probeEvents a ack).length = 48 := by
  simp [probeEvents, length_transactionEvents]

theorem holdSum_probeEvents (a : Byte) (ack : Nat → Bool) :
    holdSum (probeEvents a ack) = 50000 := by
  simp [probeEvents, holdSum_transactionEvents]

theorem length_writeEvents (a r lo hi : Byte) (ack : Nat → Bool) :
    (writeEvents a r lo hi ack).length = 159 := by
  simp [writeEvents, length_transactionEvents]

theorem holdSum_writeEvents (a r lo hi : Byte) (ack : Nat → Bool) :
    holdSum (writeEvents a r lo hi ack) = 170000 := by
  simp [writeEvents, holdSum_transactionEvents]

theorem length_storeEvents (a : Byte) (ack : Nat → Bool) : (storeEvents a ack).length = 414 := by
  simp [storeEvents, storeEvents1, storeEvents2, storeEvents3, length_transactionEvents]

theorem holdSum_storeEvents (a : Byte) (ack : Nat → Bool) :
    holdSum (storeEvents a ack) = 10190000 := by
  have hsettle : holdSum [.hold Config.tStore] = 10000000 := rfl
  simp [storeEvents, storeEvents1, storeEvents2, storeEvents3, holdSum_append,
    holdSum_transactionEvents, hsettle]

/-! A row of the timing table (R228). -/

/-- Given to `s`, the instruction runs to its end with this many events and clock pulses and this sum of holds; the time it takes is
those holds with one `T_STEP` per event on top; STOP's clock rises once. -/
def TimedAs (i : Instr) (s : State) (n pulses holds : Nat) : Prop :=
  ∃ t, exec i s = .next t ∧ (t.newEvents s).length = n ∧
    pulseCount (s.wire.read (t.newEvents s)).2 = pulses ∧ holdSum (t.newEvents s) = holds ∧
    (i = .stop → clockRises s.sclO (t.newEvents s) = 1) ∧
    elapsed (t.newEvents s) = holds + Config.tStep * n

theorem TimedAs.of_events {i : Instr} {s t : State} {es : List Event} {w : Wire}
    {ms : List WireMark} {n pulses holds : Nat} (hexec : exec i s = .next t)
    (htrace : t.trace = s.trace ++ es) (hread : s.wire.read es = (w, ms))
    (hstop : i = .stop → clockRises s.sclO es = 1) (hn : es.length = n)
    (hpulses : pulseCount ms = pulses) (hholds : holdSum es = holds) :
    TimedAs i s n pulses holds := by
  refine ⟨t, hexec, ?_⟩
  rw [State.newEvents_eq s t es htrace, hread, elapsed, hn, hpulses, hholds]
  exact ⟨rfl, rfl, rfl, hstop, rfl⟩

/-- An instruction that puts one transaction on the lines of a quiet, closed state. -/
theorem TimedAs.of_transaction {i : Instr} {s t : State} {cs : List Cell} {n pulses holds : Nat}
    (h : s.linesOk = true) (hl : s.link ≠ .started) (hexec : exec i s = .next t)
    (htrace : t.trace = s.trace ++ transactionEvents cs) (hi : i ≠ .stop)
    (hn : (transactionEvents cs).length = n) (hpulses : 9 * cs.length = pulses)
    (hholds : holdSum (transactionEvents cs) = holds) : TimedAs i s n pulses holds := by
  have hread := Wire.read_transactionEvents cs
  rw [← s.wire_closed h hl] at hread
  refine .of_events hexec htrace hread (fun h => absurd h hi) hn ?_ hholds
  rw [pulseCount_frameMarks, List.length_map, hpulses]

section
variable {s : State} (hb : s.busy = false) (h : s.linesOk = true)
include hb h

theorem timedAs_start (hl : s.link ≠ .started) : TimedAs .start s 6 0 5000 := by
  have hread := Wire.read_startEvents
  rw [← s.wire_closed h hl] at hread
  exact .of_events (startCompletes s hb hl) rfl hread nofun rfl rfl rfl

theorem timedAs_stop (hl : s.link = .started) : TimedAs .stop s 5 0 5000 := by
  have hscl := ((State.linesOk_of_started hl).1 h).2
  have hread := Wire.read_stopEvents s.sdaO
  rw [← s.wire_open h hl] at hread
  refine .of_events (es := stopEvents) (stopCompletes s hb hl) rfl hread (fun _ => ?_) rfl rfl rfl
  rw [hscl]
  rfl

/-- The per-bit hold is one event and 5 µs for each of the eight data bits. -/
theorem timedAs_txByte (b : Byte) (nh : Bool) (hl : s.link = .started) :
    TimedAs (.txByte b nh) s (if nh then 29 else 37) 9 (if nh then 0 else 40000) := by
  have hread := Wire.read_byteEvents s.sdaO (!nh) (s.sampleAt 0) b
  rw [← s.wire_open h hl] at hread
  refine .of_events (txByteCompletes s b nh hb hl) rfl hread nofun ?_ (pulseCount_cellMarks b _) ?_
  · rw [length_byteEvents]
    cases nh <;> rfl
  · rw [holdSum_byteEvents]
    cases nh <;> rfl

theorem timedAs_store (hl : s.link ≠ .started) : TimedAs .store s 414 108 10190000 := by
  have hread := Wire.read_storeEvents s.addrByte s.sampleAt
  rw [← s.wire_closed h hl] at hread
  refine .of_events (storeCompletes s hb hl) rfl hread nofun (length_storeEvents _ _) ?_
    (holdSum_storeEvents _ _)
  simp only [pulseCount_append, pulseCount_frameMarks]
  rfl

end

/-- SET_CAL puts nothing on the lines, the pair valid or not. -/
theorem timedAs_setCal {s : State} (hb : s.busy = false) (lo hi : BitVec 16) :
    TimedAs (.setCal lo hi) s 0 0 0 := by
  have hexec := setCalCompletes s lo hi hb
  split at hexec
  · exact .of_events hexec (List.append_nil _).symm rfl nofun rfl rfl rfl
  · exact .of_events hexec (List.append_nil _).symm rfl nofun rfl rfl rfl

/-- Settles O42: each row of the table, by its command's closed form. -/
theorem eventsPulsesAndHolds : Obligations.EventsPulsesAndHolds := by
  intro s hb h i n pulses holds hrow
  change TimedAs i s n pulses holds
  rcases hrow with
    ⟨hl, rfl, rfl, rfl, rfl⟩ | ⟨hl, rfl, rfl, rfl, rfl⟩ | ⟨hl, ⟨b, rfl⟩, rfl, rfl, rfl⟩ |
      ⟨hl, ⟨b, rfl⟩, rfl, rfl, rfl⟩ | ⟨hl, rfl, rfl, rfl, rfl⟩ | ⟨hl, ⟨c, rfl⟩, rfl, rfl, rfl⟩ |
      ⟨hl, ⟨x, rfl⟩, rfl, rfl, rfl⟩ | ⟨hl, rfl, rfl, rfl, rfl⟩ | ⟨⟨lo, hi, rfl⟩, rfl, rfl, rfl⟩
  · exact timedAs_start hb h hl
  · exact timedAs_stop hb h hl
  · exact timedAs_txByte hb h b false hl
  · exact timedAs_txByte hb h b true hl
  · exact .of_transaction h hl (probeCompletes s hb hl) rfl nofun (length_probeEvents ..) rfl
      (holdSum_probeEvents ..)
  · exact .of_transaction h hl (writeCodeCompletes s c hb hl) rfl nofun (length_writeEvents ..) rfl
      (holdSum_writeEvents ..)
  · exact .of_transaction h hl (writeCurrentCompletes s x _ hb hl rfl) rfl nofun
      (length_writeEvents ..) rfl (holdSum_writeEvents ..)
  · exact timedAs_store hb h hl
  · exact timedAs_setCal hb lo hi

end Sys2Proof.Machine
